-- ==== Sys2Proof/Word.lean ====
section
/-! DEFINITION. The widths of mpc-CORE (00_scope.md R5, R6; 30_encoding.md R51): labels, blocks, round keys
and keys are 128 bits, words of a round key 32 bits, tweaks 32 bits, command words 64 bits. -/

namespace Sys2Proof

/-- One byte of a cipher block. -/
abbrev Byte := BitVec 8

/-- A 32-bit column of a 128-bit value (00_scope.md R6). -/
abbrev Word32 := BitVec 32

/-- A 128-bit value: a wire label, a cipher block, a round key, the key, DIN or DOUT (R5 `LABEL_BITS`). -/
abbrev Label := BitVec 128

/-- A 32-bit tweak (R5 `TWEAK_BITS`). -/
abbrev Tweak := BitVec 32

/-- A 64-bit command word (R5 `CW_BITS`). -/
abbrev CmdWord := BitVec 64

/-- The number of a label register, 0..7 (10_state.md R10). -/
abbrev LReg := Fin 8

/-- The `idx` field of `RDRK`, 0..15; 15 names no round key (30_encoding.md R65). -/
abbrev RkIdx := Fin 16

/-- The sixteen block bytes of a 128-bit value, byte 0 first (20_memory.md R30). -/
abbrev Block := Vector Byte 16

/-- The fifteen round keys `RK[0..14]` (10_state.md R11). -/
abbrev Schedule := Vector Label 15

end Sys2Proof
end

