-- ==== Sys2Proof/Config.lean ====
section
/-! DEFINITION. What an implementation of mpc-CORE fixes (00_scope.md R5). The machine reads the number of lanes
from its own state, so that every statement about all states is one about every `NLANES`; only the state after
reset needs a number, and takes the reference value. `LATENCY` is read by no rule and is not here (R170).
The spec leaves no result value open, so there is no free value. -/

namespace Sys2Proof

/-- `NLANES` of the reference configuration (R5: "OPEN, 1..256; reference value 1"). DESIGN CHOICE, unsafe
(log entry 4): `State.reset` is the reset state of a block of this many lanes; `State.resetWith n` that of any other. -/
def Config.nLanes : Nat := 1

/-- The largest `NLANES` R5 allows, the range of the 8-bit LANEID field. -/
def Config.maxLanes : Nat := 256

end Sys2Proof
end

