-- ==== Sys2Proof/Syntax.lean ====
section
/-! DEFINITION. The twelve commands of 30_encoding.md R53 with the operands their format class names (R54).
The pseudo-instruction `LDZ Ld` of R63 is `LDL Ld` with DIN = 0 and needs no constructor. -/

namespace Sys2Proof

/-- One constructor per row of the opcode table. DIN is no part of a command word (R55): the state presents it. -/
inductive Instr where
  /-- `MKC`: build the cipher context from DIN (R71). -/
  | mkc
  /-- `CTXCLR`: destroy the cipher context (R72). -/
  | ctxclr
  /-- `RDRK #idx`: read a round key (R73). -/
  | rdrk (idx : RkIdx)
  /-- `ENC Ld, La`: the fixed-key permutation (R74). -/
  | enc (rd ra : LReg)
  /-- `LDL Ld`: load a label from DIN (R105). -/
  | ldl (rd : LReg)
  /-- `STL La`: store a label to DOUT (R106). -/
  | stl (ra : LReg)
  /-- `XOR Ld, La, Lb` (R107). -/
  | xor (rd ra rb : LReg)
  /-- `DBL Ld, La` (R108). -/
  | dbl (rd ra : LReg)
  /-- `QUAD Ld, La` (R109). -/
  | quad (rd ra : LReg)
  /-- `CTWK Ld, La, Lb, #t` (R110). -/
  | ctwk (rd ra rb : LReg) (t : Tweak)
  /-- `GATE Ld, La, Lb, Lc, #t` (R120). -/
  | gate (rd ra rb rc : LReg) (t : Tweak)
  /-- `RDST`: read status (R130). -/
  | rdst
  deriving DecidableEq, Repr

end Sys2Proof
end

