-- ==== Sys2Proof/Machine/State.lean ====
section
/-! DEFINITION. The state of mpc-CORE (10_state.md sections 1 to 9) with the host side of its command ports
(30_encoding.md R50), and the state after RESET (70_reset_and_hazards.md R160). There is no memory and no program
counter (10_state.md R14, 20_memory.md R33). -/

namespace Sys2Proof.Machine

/-- The four fault codes of 60_exceptions.md R144. A command that raises one COMPLETES with that status: the block
takes the fault, answers, and goes on (R146 to R148). It is not a `Fault` below. -/
inductive ErrCode where
  /-- `ERR_ILLEGAL`: the command word spells no command (R140). -/
  | errIllegal
  /-- `ERR_NOCTX`: the command reads the context and CTXV = 0 (R141). -/
  | errNoctx
  /-- `ERR_CTXLOCKED`: `MKC` while CTXV = 1 (R142). -/
  | errCtxlocked
  /-- `ERR_UNINIT`: a source label register has LV = 0 (R143). -/
  | errUninit
  deriving DecidableEq, Repr

/-- The status ST of a response: five values, the other eleven 4-bit codes are never produced (R144). -/
inductive Status where
  | ok
  | err (c : ErrCode)
  deriving DecidableEq, Repr

/-- What a command answers: ST and DOUT (30_encoding.md R50). -/
structure Response where
  st   : Status
  dout : Label
  deriving DecidableEq, Repr

/-- One lane: a command port with its own label registers (10_state.md R10, R12; 60_exceptions.md R150). -/
structure Lane where
  /-- LANEID, the lane's number: constant, written by nothing (R16). -/
  laneId   : BitVec 8
  /-- `L[0..7]` with their valid bits: `LV[i]` = 1 exactly where `L[i]` is present, as R13 asks. -/
  labels   : Vector (Option Label) 8
  /-- FIRSTERR, the code of the first fault since RESET, 0 for none (R17). -/
  firstErr : BitVec 4
  /-- The response (ST, DOUT) the lane's port last gave; absent while it has answered no command since RESET. -/
  response : Option Response
  deriving DecidableEq, Repr

/-- What the outside world does to the block, one entry for each thing done, in the order it takes effect. -/
inductive HostEvent where
  /-- A command (CW, DIN) presented on the port of lane `lane` (30_encoding.md R50). -/
  | command (lane : Nat) (cw : CmdWord) (din : Label)
  /-- The global RESET event (70_reset_and_hazards.md R160). -/
  | reset
  deriving DecidableEq, Repr

/-- Why the MODEL stops. The spec gives the block no stop: its own faults are `ErrCode`. -/
inductive Fault where
  /-- Raised by every command presented on a port the block does not have (lane number not below NLANES): R150 numbers
  the lanes 0..NLANES-1 and gives no effect for another. Safe: the model stops where no hardware goes on. -/
  | noSuchLane
  deriving DecidableEq, Repr

/-- Commands without a meaning. Safe: nothing can be proved of them. -/
inductive Refusal where
  /-- Raised by `exec`'s arm of an instruction that has no meaning yet; no arm does. Safe. -/
  | notModelled (mnemonic : String)
  deriving DecidableEq, Repr

/-- The whole state. `ctx`, `lanes` are the block's (10_state.md section 1); `lane`, `din`, `pending` are the host
side of its ports (log entries 1 and 2). -/
structure State where
  /-- The shared cipher context: CTXV = 1 exactly where it is present, and it then holds `RK[0..14]` (R11, R15). -/
  ctx     : Option Schedule
  /-- The NLANES lanes, lane p at position p (60_exceptions.md R150). -/
  lanes   : List Lane
  /-- The number of the lane whose command is being executed. -/
  lane    : Nat
  /-- DIN of the command being executed. -/
  din     : Label
  /-- What the host will do next, in the order in which it takes effect (20_memory.md R41). -/
  pending : List HostEvent
  deriving DecidableEq, Repr

/-- Lane p right after RESET (R160): no label register valid, no fault seen. -/
def Lane.fresh (laneId : BitVec 8) : Lane where
  laneId   := laneId
  labels   := Vector.replicate 8 none
  firstErr := 0
  response := none

/-- The state right after RESET of a block of `n` lanes, with nothing presented (R160; `lane` and `din` are the
model's, log entry 2). -/
def State.resetWith (n : Nat) : State where
  ctx     := none
  lanes   := (List.range n).map fun p => Lane.fresh (BitVec.ofNat 8 p)
  lane    := 0
  din     := 0
  pending := []

/-- The state right after RESET of the reference configuration (R160, R5). -/
def State.reset : State :=
  State.resetWith Config.nLanes

end Sys2Proof.Machine
end

