-- ==== Sys2Proof/Machine/Operands.lean ====
section
/-! DEFINITION. The operand forms: how a command reads a label register or the context (00_scope.md R7), how a
128-bit value is split into block bytes and columns (R6, 20_memory.md R30), and how the tweak is widened (R36). -/

namespace Sys2Proof.Machine

/-- `byte(x, i) = x[127-8i : 120-8i]`, block byte i of a 128-bit value (00_scope.md R6). -/
def blockByte (x : Label) (i : Nat) : Byte :=
  x.extractLsb' (120 - 8 * i) 8

/-- `word32(x, j) = x[127-32j : 96-32j]`, column j of a 128-bit value (00_scope.md R6). -/
def word32 (x : Label) (j : Nat) : Word32 :=
  x.extractLsb' (96 - 32 * j) 32

/-- The pair `(x, y)` of 20_memory.md R31: high word, low word. -/
def labelOfPair (hi lo : BitVec 64) : Label := hi ++ lo

/-- A block given byte by byte. -/
def buildBlock (f : Fin 16 → Byte) : Block :=
  #v[f 0, f 1, f 2, f 3, f 4, f 5, f 6, f 7, f 8, f 9, f 10, f 11, f 12, f 13, f 14, f 15]

/-- `BLOCK_BYTE_ORDER = BE` (20_memory.md R30): the sixteen block bytes of a 128-bit value. -/
def blockOfLabel (x : Label) : Block :=
  buildBlock fun i => blockByte x i

/-- R30, conversely: `x = byte(x,0) || byte(x,1) || ... || byte(x,15)`. -/
def labelOfBlock (b : Block) : Label :=
  b[0] ++ b[1] ++ b[2] ++ b[3] ++ b[4] ++ b[5] ++ b[6] ++ b[7] ++
    b[8] ++ b[9] ++ b[10] ++ b[11] ++ b[12] ++ b[13] ++ b[14] ++ b[15]

/-- `Widen(t) = zext_128(t)` (41_label_alu.md R103; 20_memory.md R36). -/
def widen (t : Tweak) : Label :=
  t.setWidth 128

/-- Reading a source label register: its value, or `ERR_UNINIT` where LV = 0 (60_exceptions.md R143). -/
def Lane.readLabel (ln : Lane) (r : LReg) : Except ErrCode Label :=
  match ln.labels[r] with
  | some v => .ok v
  | none => .error .errUninit

/-- Reading the context: its round keys, or `ERR_NOCTX` where CTXV = 0 (60_exceptions.md R141). -/
def State.readContext (s : State) : Except ErrCode Schedule :=
  match s.ctx with
  | some rk => .ok rk
  | none => .error .errNoctx

end Sys2Proof.Machine
end

