-- ==== Sys2Proof/Machine/Cipher.lean ====
section
/-! DEFINITION. The pure functions of the cipher context (40_cipher_context.md): arithmetic in GF(2^8) and the S-box
(R87, R78), the key schedule (R70, R75 to R77) and the 14-round cipher (R79 to R86). -/

namespace Sys2Proof.Machine

/-- `xtime(b)`: times x modulo 0x11B (R87). -/
def xtime (b : Byte) : Byte :=
  if b.msb then (b <<< 1) ^^^ 0x1B else b <<< 1

/-- `mul2` (R87). -/
def mul2 (b : Byte) : Byte := xtime b

/-- `mul3` (R87). -/
def mul3 (b : Byte) : Byte := xtime b ^^^ b

/-- Shift-and-add over the low `n` bits of `b`: one bit of `b` a step, `a` times x at each. -/
def gmulLoop : Nat → Byte → Byte → Byte
  | 0, _, _ => 0
  | n + 1, a, b => (if b.getLsbD 0 then a else 0) ^^^ gmulLoop n (xtime a) (b >>> 1)

/-- General multiplication in GF(2^8): "shift-and-add with `xtime`" (R87). -/
def gmul (a b : Byte) : Byte := gmulLoop 8 a b

/-- The product of `n` successive squarings of `p`: p, p^2, p^4, ... -/
def gsquares : Nat → Byte → Byte
  | 0, _ => 1
  | n + 1, p => gmul p (gsquares n (gmul p p))

/-- `inv(b)`: the multiplicative inverse, `inv(0) = 0` (R87). DEDUCED, safe (log entry 10): computed as the 254th
power, b^2 b^4 ... b^128, the field having 255 nonzero elements; no command uses it, only the second definition of
the S-box. -/
def ginv (b : Byte) : Byte := gsquares 7 (gmul b b)

/-- `rotl8`: rotation left within 8 bits (R78). -/
def rotl8 (b : Byte) (n : Nat) : Byte := b.rotateLeft n

/-- The affine map of R78's equivalent definition of the S-box, applied to `inv(a)`. -/
def sboxAffine (b : Byte) : Byte :=
  b ^^^ rotl8 b 1 ^^^ rotl8 b 2 ^^^ rotl8 b 3 ^^^ rotl8 b 4 ^^^ 0x63

/-- The S-box table of R78, one row of sixteen entries a value, entry 0 its most significant byte. -/
def sboxRows : List Label := [
  0x637C777BF26B6FC53001672BFED7AB76,
  0xCA82C97DFA5947F0ADD4A2AF9CA472C0,
  0xB7FD9326363FF7CC34A5E5F171D83115,
  0x04C723C31896059A071280E2EB27B275,
  0x09832C1A1B6E5AA0523BD6B329E32F84,
  0x53D100ED20FCB15B6ACBBE394A4C58CF,
  0xD0EFAAFB434D338545F9027F503C9FA8,
  0x51A3408F929D38F5BCB6DA2110FFF3D2,
  0xCD0C13EC5F974417C4A77E3D645D1973,
  0x60814FDC222A908846EEB814DE5E0BDB,
  0xE0323A0A4906245CC2D3AC629195E479,
  0xE7C8376D8DD54EA96C56F4EA657AAE08,
  0xBA78252E1CA6B4C6E8DD741F4BBD8B8A,
  0x703EB5664803F60E613557B986C11D9E,
  0xE1F8981169D98E949B1E87E9CE5528DF,
  0x8CA1890DBFE6426841992D0FB054BB16]

/-- `S[b]`: row = high nibble, column = low nibble (R78). -/
def sbox (b : Byte) : Byte :=
  blockByte (sboxRows.getD (b.toNat / 16) 0) (b.toNat % 16)

/-- The round constants `RCON[1..14]` (R70). -/
def rconTable : List Byte :=
  [0x01, 0x02, 0x04, 0x08, 0x10, 0x20, 0x40, 0x80, 0x1B, 0x36, 0x6C, 0xD8, 0xAB, 0x4D]

/-- `RCON[i]`, i = 1..14 (R70). -/
def rcon (i : Nat) : Byte := rconTable.getD (i - 1) 0

/-- `RotWord` (R77). -/
def rotWord (w : Word32) : Word32 :=
  w <<< 8 ||| w >>> 24

/-- `SubWord` (R77): the S-box on each byte of a 32-bit word. -/
def subWord (w : Word32) : Word32 :=
  sbox (w.extractLsb' 24 8) ++ sbox (w.extractLsb' 16 8) ++ sbox (w.extractLsb' 8 8) ++ sbox (w.extractLsb' 0 8)

/-- `KeyStep(prev, rc)` (R76). -/
def keyStep (prev : Label) (rc : Byte) : Label :=
  let temp := subWord (rotWord (word32 prev 3)) ^^^ (rc.setWidth 32 <<< 24)
  let n0 := word32 prev 0 ^^^ temp
  let n1 := word32 prev 1 ^^^ n0
  let n2 := word32 prev 2 ^^^ n1
  let n3 := word32 prev 3 ^^^ n2
  n0 ++ n1 ++ n2 ++ n3

/-- `k[i]` of R75: the key, then one `KeyStep` for each round constant. -/
def roundKey (key : Label) : Nat → Label
  | 0 => key
  | i + 1 => keyStep (roundKey key i) (rcon (i + 1))

/-- `KeyExpand(key)` (R75): fifteen round keys. -/
def keyExpand (key : Label) : Schedule :=
  let k := roundKey key
  #v[k 0, k 1, k 2, k 3, k 4, k 5, k 6, k 7, k 8, k 9, k 10, k 11, k 12, k 13, k 14]

/-- `SubBytes` (R80). -/
def subBytes (b : Block) : Block :=
  buildBlock fun i => sbox b[i]

/-- `ShiftRows` (R81) on the layout of R79: output byte r + 4c is input byte r + 4((c + r) mod 4). -/
def shiftRows (b : Block) : Block :=
  buildBlock fun i => b[i.val % 4 + 4 * ((i.val / 4 + i.val % 4) % 4)]

/-- Row r of `MixColumns` applied to the column a0 a1 a2 a3 (R82). -/
def mixRow (r : Nat) (a0 a1 a2 a3 : Byte) : Byte :=
  match r with
  | 0 => mul2 a0 ^^^ mul3 a1 ^^^ a2 ^^^ a3
  | 1 => a0 ^^^ mul2 a1 ^^^ mul3 a2 ^^^ a3
  | 2 => a0 ^^^ a1 ^^^ mul2 a2 ^^^ mul3 a3
  | _ => mul3 a0 ^^^ a1 ^^^ a2 ^^^ mul2 a3

/-- `MixColumns` (R82). -/
def mixColumns (b : Block) : Block :=
  buildBlock fun i =>
    mixRow (i.val % 4) b[4 * (i.val / 4)] b[4 * (i.val / 4) + 1] b[4 * (i.val / 4) + 2] b[4 * (i.val / 4) + 3]

/-- `AddRoundKey` (R83). -/
def addRoundKey (x rk : Label) : Label := x ^^^ rk

/-- `FullRound(x, rk)` (R84). -/
def fullRound (x rk : Label) : Label :=
  addRoundKey (labelOfBlock (mixColumns (shiftRows (subBytes (blockOfLabel x))))) rk

/-- `FinalRound(x, rk)`: no `MixColumns` (R85). -/
def finalRound (x rk : Label) : Label :=
  addRoundKey (labelOfBlock (shiftRows (subBytes (blockOfLabel x)))) rk

/-- `RK[1..13]`, the keys of the full rounds (R86). -/
def middleKeys (rk : Schedule) : List Label :=
  (rk.toList.drop 1).take 13

/-- `Encrypt(RK, x)` (R86): key 0, thirteen full rounds, one final round. -/
def encrypt (rk : Schedule) (x : Label) : Label :=
  finalRound ((middleKeys rk).foldl fullRound (addRoundKey x rk[0])) rk[14]

end Sys2Proof.Machine
end

