-- ==== Sys2Proof/WellFormed.lean ====
section
/-! DEFINITION. Which terms of `Instr` a command word can spell. Register fields take every value 0..7 and the
tweak every 32-bit value (30_encoding.md R52, R58); only the round-key index has a value that names nothing. -/

namespace Sys2Proof

/-- R65: "`idx` 0..14 selects `RK[idx]`"; every other operand is legal at every value of its type. -/
def Instr.wellFormed : Instr → Bool
  | .rdrk idx => idx.val ≤ 14
  | .mkc => true
  | .ctxclr => true
  | .enc _ _ => true
  | .ldl _ => true
  | .stl _ => true
  | .xor _ _ _ => true
  | .dbl _ _ => true
  | .quad _ _ => true
  | .ctwk _ _ _ _ => true
  | .gate _ _ _ _ _ => true
  | .rdst => true

end Sys2Proof
end

