-- ==== Sys2Proof/Decode.lean ====
section
/-! DEFINITION. The one command format (30_encoding.md R51 to R58, R64, R65): field extraction, the decoder and,
after it, the encoder. Every one of the 2^64 words is either one command or rejected by name (R55). -/

namespace Sys2Proof

/-- The eight fields of a command word, most significant first (R51). -/
structure Fields where
  imm32  : BitVec 32
  opcode : BitVec 8
  rd     : BitVec 3
  ra     : BitVec 3
  rb     : BitVec 3
  rc     : BitVec 3
  idx    : BitVec 4
  zero   : BitVec 8
  deriving DecidableEq, Repr

/-- R52: the fields of a command word. -/
def fieldsOf (cw : CmdWord) : Fields where
  imm32  := cw.extractLsb' 32 32
  opcode := cw.extractLsb' 24 8
  rd     := cw.extractLsb' 21 3
  ra     := cw.extractLsb' 18 3
  rb     := cw.extractLsb' 15 3
  rc     := cw.extractLsb' 12 3
  idx    := cw.extractLsb' 8 4
  zero   := cw.extractLsb' 0 8

/-- R51: the command word made of eight fields. -/
def packFields (f : Fields) : CmdWord :=
  f.imm32 ++ f.opcode ++ f.rd ++ f.ra ++ f.rb ++ f.rc ++ f.idx ++ f.zero

/-- Why a word spells no command; all four are the one status `ERR_ILLEGAL` (60_exceptions.md R140). -/
inductive DecodeError where
  /-- R57: the opcode is none of the twelve. -/
  | reservedOpcode
  /-- R56: the `zero` field is not 0. -/
  | nonzeroZeroField
  /-- R56: a field outside the command's class is not 0. -/
  | nonzeroUnusedField
  /-- R65: `RDRK` with `idx` = 15. -/
  | noSuchRoundKey
  deriving DecidableEq, Repr

/-- The format classes of R54: the set of fields a command uses. -/
inductive FormatClass where
  | z | i | d | a | da | dab | dabt | dabct
  deriving DecidableEq, Repr

/-- R54, R56: every field outside the class is 0 (the `zero` field is checked apart). -/
def FormatClass.unusedZero (c : FormatClass) (f : Fields) : Bool :=
  match c with
  | .z     => f.imm32 == 0 && f.rd == 0 && f.ra == 0 && f.rb == 0 && f.rc == 0 && f.idx == 0
  | .i     => f.imm32 == 0 && f.rd == 0 && f.ra == 0 && f.rb == 0 && f.rc == 0
  | .d     => f.imm32 == 0 && f.ra == 0 && f.rb == 0 && f.rc == 0 && f.idx == 0
  | .a     => f.imm32 == 0 && f.rd == 0 && f.rb == 0 && f.rc == 0 && f.idx == 0
  | .da    => f.imm32 == 0 && f.rb == 0 && f.rc == 0 && f.idx == 0
  | .dab   => f.imm32 == 0 && f.rc == 0 && f.idx == 0
  | .dabt  => f.rc == 0 && f.idx == 0
  | .dabct => f.idx == 0

/-- Steps 3 and 4 of R55 for a command of class `c`. -/
def accept (f : Fields) (c : FormatClass) (i : Instr) : Except DecodeError Instr :=
  if f.zero ≠ 0 then .error .nonzeroZeroField
  else if c.unusedZero f then .ok i
  else .error .nonzeroUnusedField

/-- Step 5 of R55: the index of `RDRK` must name a round key (R65). -/
def acceptIndexed (f : Fields) : Except DecodeError Instr :=
  match accept f .i (.rdrk f.idx.toFin) with
  | .ok i => if i.wellFormed then .ok i else .error .noSuchRoundKey
  | .error e => .error e

/-- R55 from step 2 on, the opcodes of R53. -/
def decodeFields (f : Fields) : Except DecodeError Instr :=
  match f.opcode with
  | 0x01#8 => accept f .z .mkc
  | 0x02#8 => accept f .z .ctxclr
  | 0x03#8 => acceptIndexed f
  | 0x04#8 => accept f .da (.enc f.rd.toFin f.ra.toFin)
  | 0x10#8 => accept f .d (.ldl f.rd.toFin)
  | 0x11#8 => accept f .a (.stl f.ra.toFin)
  | 0x12#8 => accept f .dab (.xor f.rd.toFin f.ra.toFin f.rb.toFin)
  | 0x13#8 => accept f .da (.dbl f.rd.toFin f.ra.toFin)
  | 0x14#8 => accept f .da (.quad f.rd.toFin f.ra.toFin)
  | 0x15#8 => accept f .dabt (.ctwk f.rd.toFin f.ra.toFin f.rb.toFin f.imm32)
  | 0x20#8 => accept f .dabct (.gate f.rd.toFin f.ra.toFin f.rb.toFin f.rc.toFin f.imm32)
  | 0x30#8 => accept f .z .rdst
  | _ => .error .reservedOpcode

/-- The decoder (R55). It looks at the command word alone, never at DIN or at the state. -/
def decode (cw : CmdWord) : Except DecodeError Instr :=
  decodeFields (fieldsOf cw)

/-- What the host asks of the decoder: a command word given as the number of its bits. A command word is one 64-bit
value on a port, not bytes in a memory (R50), so bit n of the table is bit n of CW and no byte order enters. -/
def decodeTableWord (nbits w : Nat) : Option Instr :=
  if w < 2 ^ nbits then
    if w < 2 ^ 64 then (decode (BitVec.ofNat 64 w)).toOption else none
  else none

/-- The opcode byte of each command (R53). -/
def opcodeOf : Instr → BitVec 8
  | .mkc => 0x01
  | .ctxclr => 0x02
  | .rdrk _ => 0x03
  | .enc _ _ => 0x04
  | .ldl _ => 0x10
  | .stl _ => 0x11
  | .xor _ _ _ => 0x12
  | .dbl _ _ => 0x13
  | .quad _ _ => 0x14
  | .ctwk _ _ _ _ => 0x15
  | .gate _ _ _ _ _ => 0x20
  | .rdst => 0x30

/-- The format class of each command (R53). -/
def classOf : Instr → FormatClass
  | .mkc => .z
  | .ctxclr => .z
  | .rdrk _ => .i
  | .enc _ _ => .da
  | .ldl _ => .d
  | .stl _ => .a
  | .xor _ _ _ => .dab
  | .dbl _ _ => .da
  | .quad _ _ => .da
  | .ctwk _ _ _ _ => .dabt
  | .gate _ _ _ _ _ => .dabct
  | .rdst => .z

/-- The fields of a word whose unused fields are 0 (R56). -/
def fieldsWith (opcode : BitVec 8) (rd ra rb rc : LReg := 0) (idx : RkIdx := 0) (imm32 : Tweak := 0) : Fields where
  imm32  := imm32
  opcode := opcode
  rd     := .ofFin rd
  ra     := .ofFin ra
  rb     := .ofFin rb
  rc     := .ofFin rc
  idx    := .ofFin idx
  zero   := 0

/-- The fields that spell a command, from the encodings R71 to R74, R105 to R110, R120 and R130 give. -/
def instrFields (i : Instr) : Fields :=
  match i with
  | .mkc => fieldsWith (opcodeOf i)
  | .ctxclr => fieldsWith (opcodeOf i)
  | .rdrk idx => fieldsWith (opcodeOf i) (idx := idx)
  | .enc rd ra => fieldsWith (opcodeOf i) (rd := rd) (ra := ra)
  | .ldl rd => fieldsWith (opcodeOf i) (rd := rd)
  | .stl ra => fieldsWith (opcodeOf i) (ra := ra)
  | .xor rd ra rb => fieldsWith (opcodeOf i) (rd := rd) (ra := ra) (rb := rb)
  | .dbl rd ra => fieldsWith (opcodeOf i) (rd := rd) (ra := ra)
  | .quad rd ra => fieldsWith (opcodeOf i) (rd := rd) (ra := ra)
  | .ctwk rd ra rb t => fieldsWith (opcodeOf i) (rd := rd) (ra := ra) (rb := rb) (imm32 := t)
  | .gate rd ra rb rc t => fieldsWith (opcodeOf i) (rd := rd) (ra := ra) (rb := rb) (rc := rc) (imm32 := t)
  | .rdst => fieldsWith (opcodeOf i)

/-- The encoder: the command word of a command. -/
def encode (i : Instr) : CmdWord :=
  packFields (instrFields i)

/-- One row of the opcode table of R53. -/
structure TableRow where
  mnemonic : String
  matchW   : CmdWord
  mask     : CmdWord
  deriving DecidableEq, Repr

/-- The table of R53 as it stands there. The decoder does not read it: that decoder and table agree is a claim. -/
def opcodeTable : List TableRow := [
  ⟨"MKC",    0x0000000001000000, 0xFFFFFFFFFFFFFFFF⟩,
  ⟨"CTXCLR", 0x0000000002000000, 0xFFFFFFFFFFFFFFFF⟩,
  ⟨"RDRK",   0x0000000003000000, 0xFFFFFFFFFFFFF0FF⟩,
  ⟨"ENC",    0x0000000004000000, 0xFFFFFFFFFF03FFFF⟩,
  ⟨"LDL",    0x0000000010000000, 0xFFFFFFFFFF1FFFFF⟩,
  ⟨"STL",    0x0000000011000000, 0xFFFFFFFFFFE3FFFF⟩,
  ⟨"XOR",    0x0000000012000000, 0xFFFFFFFFFF007FFF⟩,
  ⟨"DBL",    0x0000000013000000, 0xFFFFFFFFFF03FFFF⟩,
  ⟨"QUAD",   0x0000000014000000, 0xFFFFFFFFFF03FFFF⟩,
  ⟨"CTWK",   0x0000000015000000, 0x00000000FF007FFF⟩,
  ⟨"GATE",   0x0000000020000000, 0x00000000FF000FFF⟩,
  ⟨"RDST",   0x0000000030000000, 0xFFFFFFFFFFFFFFFF⟩]

/-- R53: "(CW & mask) = match; for `RDRK` additionally `idx <= 14`". -/
def TableRow.spells (row : TableRow) (cw : CmdWord) : Bool :=
  cw &&& row.mask == row.matchW && (row.mnemonic != "RDRK" || (cw.extractLsb' 8 4).toNat ≤ 14)

/-- The mnemonic of each command (R53). -/
def mnemonicOf : Instr → String
  | .mkc => "MKC"
  | .ctxclr => "CTXCLR"
  | .rdrk _ => "RDRK"
  | .enc _ _ => "ENC"
  | .ldl _ => "LDL"
  | .stl _ => "STL"
  | .xor _ _ _ => "XOR"
  | .dbl _ _ => "DBL"
  | .quad _ _ => "QUAD"
  | .ctwk _ _ _ _ => "CTWK"
  | .gate _ _ _ _ _ => "GATE"
  | .rdst => "RDST"

end Sys2Proof
end

