-- ==== Sys2Proof/Machine/Flags.lean ====
section
/-! DEFINITION. The flag-like state. No command computes a condition code (10_state.md R22); what there is are
CTXV, LV and FIRSTERR, none a function of a label, key or tweak value, and the STATUS view of them (R16). -/

namespace Sys2Proof.Machine

/-- CTXV: 1 exactly when the shared context exists (R15). -/
def State.ctxv (s : State) : Bool :=
  s.ctx.isSome

/-- `LV[i]` (R13). -/
def Lane.lv (ln : Lane) (i : LReg) : Bool :=
  ln.labels[i].isSome

/-- `LV[7..0]`: the 8-bit value whose bit i is `LV[i]` (43_system.md R130). -/
def Lane.lvBits (ln : Lane) : BitVec 8 :=
  BitVec.ofBool (ln.lv 7) ++ BitVec.ofBool (ln.lv 6) ++ BitVec.ofBool (ln.lv 5) ++ BitVec.ofBool (ln.lv 4) ++
    BitVec.ofBool (ln.lv 3) ++ BitVec.ofBool (ln.lv 2) ++ BitVec.ofBool (ln.lv 1) ++ BitVec.ofBool (ln.lv 0)

/-- The number of a fault code (60_exceptions.md R144). -/
def ErrCode.bits : ErrCode → BitVec 4
  | .errIllegal => 1
  | .errNoctx => 2
  | .errCtxlocked => 3
  | .errUninit => 4

/-- The 4-bit ST of a status (R144). -/
def Status.bits : Status → BitVec 4
  | .ok => 0
  | .err c => c.bits

/-- The status of a 4-bit ST: 5..15 are never produced and are no status (R144; 93_implementation_defined.md X7). -/
def Status.ofBits (b : BitVec 4) : Option Status :=
  match b with
  | 0#4 => some .ok
  | 1#4 => some (.err .errIllegal)
  | 2#4 => some (.err .errNoctx)
  | 3#4 => some (.err .errCtxlocked)
  | 4#4 => some (.err .errUninit)
  | _ => none

/-- R17, R147: FIRSTERR after a fault with code `c`: the first fault's code stays. -/
def latchFirstErr (firstErr : BitVec 4) (c : ErrCode) : BitVec 4 :=
  if firstErr = 0 then c.bits else firstErr

/-- `zext_128(LANEID << 16 | LV << 8 | FIRSTERR << 4 | CTXV)` (43_system.md R130; layout 10_state.md R16). -/
def statusWord (s : State) (ln : Lane) : Label :=
  (ln.laneId.setWidth 128 <<< 16) ||| (ln.lvBits.setWidth 128 <<< 8) |||
    (ln.firstErr.setWidth 128 <<< 4) ||| (BitVec.ofBool s.ctxv).setWidth 128

end Sys2Proof.Machine
end

