-- ==== Sys2Proof/Machine/Ops.lean ====
section
/-! DEFINITION. The named operations every command goes through: fetching the host's next event, running one command
on its lane, taking a fault (the one shared operation, 60_exceptions.md R146, R147), RESET (70_reset_and_hazards.md
R160). There is no return from a fault, because nothing is entered (R148, R154). -/

namespace Sys2Proof.Machine

/-- Writing a label register: `L[rd] <- v` and `LV[rd] <- 1` (00_scope.md R7). -/
def Lane.writeLabel (ln : Lane) (rd : LReg) (v : Label) : Lane :=
  { ln with labels := ln.labels.set rd (some v) }

/-- The response a lane's port gives (30_encoding.md R50). -/
def Lane.respond (ln : Lane) (st : Status) (dout : Label) : Lane :=
  { ln with response := some ⟨st, dout⟩ }

/-- TAKING A FAULT: the command is nullified, ST = code, DOUT = 0, and FIRSTERR takes the code if it was 0
(R146, R147). -/
def Lane.takeFault (ln : Lane) (c : ErrCode) : Lane :=
  { ln with firstErr := latchFirstErr ln.firstErr c, response := some ⟨.err c, 0⟩ }

/-- What a command that ends with `OK` does, besides answering. No command does more than one of these. -/
inductive Effect where
  /-- The shared context becomes this (`MKC`, `CTXCLR`); DOUT = 0. -/
  | setContext (ctx : Option Schedule)
  /-- A label register of the issuing lane becomes this; DOUT = 0. -/
  | setLabel (rd : LReg) (v : Label)
  /-- No state changes; DOUT is this (`RDRK`, `STL`, `RDST`). -/
  | drive (dout : Label)
  deriving DecidableEq, Repr

/-- The issuing lane becomes `ln`; no other lane changes (10_state.md R12). -/
def State.putLane (s : State) (ln : Lane) : State :=
  { s with lanes := s.lanes.set s.lane ln }

/-- The end of a command with `ST = OK` (30_encoding.md R59: DOUT is 0 unless the command reads). -/
def State.finish (s : State) (ln : Lane) (e : Effect) : State :=
  match e with
  | .setContext ctx => { s with ctx := ctx }.putLane (ln.respond .ok 0)
  | .setLabel rd v => s.putLane ((ln.writeLabel rd v).respond .ok 0)
  | .drive dout => s.putLane (ln.respond .ok dout)

/-- One command on the issuing lane, as one atomic step (20_memory.md R40): `body` makes all checks and the whole
computation on the state before, then either the fault is taken or the effect happens. -/
def perform (s : State) (body : Lane → Except ErrCode Effect) : Host.Outcome State Fault Refusal :=
  match s.lanes[s.lane]? with
  | none => .fault .noSuchLane
  | some ln =>
    match body ln with
    | .error c => .next (s.putLane (ln.takeFault c))
    | .ok e => .next (s.finish ln e)

/-- A word that spells no command faults with `ERR_ILLEGAL`, whatever DIN and the state are (60_exceptions.md R140). -/
def illegalWord (s : State) : Host.Outcome State Fault Refusal :=
  perform s fun _ => .error .errIllegal

/-- A lane after RESET: LANEID stays, everything else is as after power-on (R160). -/
def Lane.reset (ln : Lane) : Lane :=
  Lane.fresh ln.laneId

/-- The RESET event: all lanes and the shared context at once (R160). -/
def State.applyReset (s : State) : State :=
  { s with ctx := none, lanes := s.lanes.map Lane.reset }

/-- What the host does next, with the state in which it takes effect. -/
inductive Fetched where
  /-- Nothing is presented. -/
  | idle
  /-- RESET, the rest of the events still pending. -/
  | reset (s : State)
  /-- A command word, its lane and DIN on the port, the rest of the events still pending. -/
  | word (cw : CmdWord) (s : State)
  deriving DecidableEq, Repr

/-- Takes the host's next event. The block fetches nothing itself (10_state.md R14): a command executes when the host
presents it. -/
def State.fetch (s : State) : Fetched :=
  match s.pending with
  | [] => .idle
  | .reset :: rest => .reset { s with pending := rest }
  | .command p cw din :: rest => .word cw { s with lane := p, din := din, pending := rest }

end Sys2Proof.Machine
end

