-- ==== Sys2Proof/Machine/Context.lean ====
section
/-! DEFINITION. The cipher context commands `MKC`, `CTXCLR`, `RDRK`, `ENC` (40_cipher_context.md R71 to R74). -/

namespace Sys2Proof.Machine

/-- `MKC` (R71): the context is built once; with CTXV = 1 it is locked (60_exceptions.md R142). -/
def execMkc (s : State) : Host.Outcome State Fault Refusal :=
  perform s fun _ =>
    match s.ctx with
    | some _ => .error .errCtxlocked
    | none => .ok (.setContext (some (keyExpand s.din)))

/-- `CTXCLR` (R72): it succeeds with CTXV = 0 too. -/
def execCtxclr (s : State) : Host.Outcome State Fault Refusal :=
  perform s fun _ => .ok (.setContext none)

/-- `RDRK #idx` (R73). No word spells idx = 15 (R65); as a term it faults as R73's pseudocode says (log entry 8). -/
def execRdrk (idx : RkIdx) (s : State) : Host.Outcome State Fault Refusal :=
  perform s fun _ =>
    if h : idx.val < 15 then do
      let rk ← s.readContext
      return .drive rk[idx.val]
    else .error .errIllegal

/-- `ENC Ld, La` (R74). -/
def execEnc (rd ra : LReg) (s : State) : Host.Outcome State Fault Refusal :=
  perform s fun ln => do
    let rk ← s.readContext
    let a ← ln.readLabel ra
    return .setLabel rd (encrypt rk a)

end Sys2Proof.Machine
end

