-- ==== Sys2Proof/Machine/LabelAlu.lean ====
section
/-! DEFINITION. The label algebra and its commands `LDL`, `STL`, `XOR`, `DBL`, `QUAD`, `CTWK`
(41_label_alu.md R100 to R110). None reads the cipher context. -/

namespace Sys2Proof.Machine

/-- `Xor(a, b)` (R100). -/
def labelXor (a b : Label) : Label := a ^^^ b

/-- `Dbl(a) = (a << 1) mod 2^128` (R101): an integer shift, no reduction polynomial (90_conflicts.md C5). -/
def labelDbl (a : Label) : Label := a <<< 1

/-- `Quad(a) = (a << 2) mod 2^128` (R102). -/
def labelQuad (a : Label) : Label := a <<< 2

/-- `CombineTweak(a, b, t) = Dbl(a) ^ Quad(b) ^ Widen(t)` (R104). -/
def combineTweak (a b : Label) (t : Tweak) : Label :=
  labelXor (labelXor (labelDbl a) (labelQuad b)) (widen t)

/-- `LDL Ld` (R105). -/
def execLdl (rd : LReg) (s : State) : Host.Outcome State Fault Refusal :=
  perform s fun _ => .ok (.setLabel rd s.din)

/-- `STL La` (R106). -/
def execStl (ra : LReg) (s : State) : Host.Outcome State Fault Refusal :=
  perform s fun ln => do
    let a ← ln.readLabel ra
    return .drive a

/-- `XOR Ld, La, Lb` (R107). -/
def execXor (rd ra rb : LReg) (s : State) : Host.Outcome State Fault Refusal :=
  perform s fun ln => do
    let a ← ln.readLabel ra
    let b ← ln.readLabel rb
    return .setLabel rd (labelXor a b)

/-- `DBL Ld, La` (R108). -/
def execDbl (rd ra : LReg) (s : State) : Host.Outcome State Fault Refusal :=
  perform s fun ln => do
    let a ← ln.readLabel ra
    return .setLabel rd (labelDbl a)

/-- `QUAD Ld, La` (R109). -/
def execQuad (rd ra : LReg) (s : State) : Host.Outcome State Fault Refusal :=
  perform s fun ln => do
    let a ← ln.readLabel ra
    return .setLabel rd (labelQuad a)

/-- `CTWK Ld, La, Lb, #t` (R110). -/
def execCtwk (rd ra rb : LReg) (t : Tweak) (s : State) : Host.Outcome State Fault Refusal :=
  perform s fun ln => do
    let a ← ln.readLabel ra
    let b ← ln.readLabel rb
    return .setLabel rd (combineTweak a b t)

end Sys2Proof.Machine
end

