-- ==== Sys2Proof/Machine/Gate.lean ====
section
/-! DEFINITION. The tweakable permutation engine: `ProcessGate` and the command `GATE` (42_gate_engine.md R120, R121).
Garbling and evaluation are the same function (R122); tweak reuse is not checked (70_reset_and_hazards.md R171). -/

namespace Sys2Proof.Machine

/-- `ProcessGate(RK, a, b, c, t)` (R121): combine, encipher, mask. -/
def processGate (rk : Schedule) (a b c : Label) (t : Tweak) : Label :=
  let k := combineTweak a b t
  let pi := encrypt rk k
  labelXor (labelXor pi k) c

/-- `GATE Ld, La, Lb, Lc, #t` (R120): the context is checked before the sources (60_exceptions.md R145). -/
def execGate (rd ra rb rc : LReg) (t : Tweak) (s : State) : Host.Outcome State Fault Refusal :=
  perform s fun ln => do
    let rk ← s.readContext
    let a ← ln.readLabel ra
    let b ← ln.readLabel rb
    let c ← ln.readLabel rc
    return .setLabel rd (processGate rk a b c t)

end Sys2Proof.Machine
end

