-- ==== Sys2Proof/Machine/System.lean ====
section
/-! DEFINITION. The system command `RDST` (43_system.md R130). -/

namespace Sys2Proof.Machine

/-- `RDST` (R130): the status word as it was before this command. -/
def execRdst (s : State) : Host.Outcome State Fault Refusal :=
  perform s fun ln => .ok (.drive (statusWord s ln))

end Sys2Proof.Machine
end

