-- ==== Sys2Proof/Machine/Dispatch.lean ====
section
/-! DEFINITION. One arm per command, each one call of its meaning. -/

namespace Sys2Proof.Machine

def exec (i : Instr) (s : State) : Host.Outcome State Fault Refusal :=
  match i with
  | .mkc => Sys2Proof.Machine.execMkc s
  | .ctxclr => Sys2Proof.Machine.execCtxclr s
  | .rdrk idx => Sys2Proof.Machine.execRdrk idx s
  | .enc rd ra => Sys2Proof.Machine.execEnc rd ra s
  | .ldl rd => Sys2Proof.Machine.execLdl rd s
  | .stl ra => Sys2Proof.Machine.execStl ra s
  | .xor rd ra rb => Sys2Proof.Machine.execXor rd ra rb s
  | .dbl rd ra => Sys2Proof.Machine.execDbl rd ra s
  | .quad rd ra => Sys2Proof.Machine.execQuad rd ra s
  | .ctwk rd ra rb t => Sys2Proof.Machine.execCtwk rd ra rb t s
  | .gate rd ra rb rc t => Sys2Proof.Machine.execGate rd ra rb rc t s
  | .rdst => Sys2Proof.Machine.execRdst s

end Sys2Proof.Machine
end

