-- ==== Sys2Proof/Machine/Step.lean ====
section
/-! DEFINITION. One step of the machine: the host's next event takes effect, whole (20_memory.md R40). -/

namespace Sys2Proof.Machine

/-- One step. With nothing presented the block does nothing (60_exceptions.md R150); RESET falls between two commands
(70_reset_and_hazards.md R160); a command word runs as what it decodes to, or is illegal (30_encoding.md R55). -/
def step (s : State) : Host.Outcome State Fault Refusal :=
  match s.fetch with
  | .idle => .next s
  | .reset s' => .next s'.applyReset
  | .word cw s' =>
    match decode cw with
    | .ok i => exec i s'
    | .error _ => illegalWord s'

/-- The host presents the command word `w` next, on the port last used and with the DIN last used (after reset: lane 0
and 0, log entries 2 and 7), so that the very next step runs it. -/
def State.withFetchWord (s : State) (nbits w : Nat) : State :=
  { s with pending := .command s.lane (BitVec.ofNat 64 (w % 2 ^ nbits)) s.din :: s.pending }

end Sys2Proof.Machine
end

