-- ==== Sys2Proof/Machine/Assembly.lean ====
section
/-! DEFINITION. The written form of a command (30_encoding.md R62) and the one pseudo-instruction (R63). The block
itself reads command words alone; nothing here is read by `step`. -/

namespace Sys2Proof.Machine

/-- `L0`..`L7` (R62). -/
def regName (r : LReg) : String :=
  "L" ++ toString r.val

/-- Mnemonic and operands, separated as R62 writes them: destination, sources, then the immediate in decimal. -/
def written (mnemonic : String) (operands : List String) : String :=
  match operands with
  | [] => mnemonic
  | _ => mnemonic ++ " " ++ ", ".intercalate operands

/-- The text of a command, without the DIN of `MKC` and `LDL` (R62). -/
def assembly (i : Instr) : String :=
  match i with
  | .mkc => written (mnemonicOf i) []
  | .ctxclr => written (mnemonicOf i) []
  | .rdrk idx => written (mnemonicOf i) ["#" ++ toString idx.val]
  | .enc rd ra => written (mnemonicOf i) [regName rd, regName ra]
  | .ldl rd => written (mnemonicOf i) [regName rd]
  | .stl ra => written (mnemonicOf i) [regName ra]
  | .xor rd ra rb => written (mnemonicOf i) [regName rd, regName ra, regName rb]
  | .dbl rd ra => written (mnemonicOf i) [regName rd, regName ra]
  | .quad rd ra => written (mnemonicOf i) [regName rd, regName ra]
  | .ctwk rd ra rb t => written (mnemonicOf i) [regName rd, regName ra, regName rb, "#" ++ toString t.toNat]
  | .gate rd ra rb rc t =>
    written (mnemonicOf i) [regName rd, regName ra, regName rb, regName rc, "#" ++ toString t.toNat]
  | .rdst => written (mnemonicOf i) []

/-- `LDZ Ld` is `LDL Ld <= 0` (R63): the event that presents it on a lane. -/
def ldz (lane : Nat) (rd : LReg) : HostEvent :=
  .command lane (encode (.ldl rd)) 0

end Sys2Proof.Machine
end

