-- ==== Sys2Proof/Safety.lean ====
section
/-! DEFINITION. What the claims are stated in: the invariant of the state, a fault-free block, the lane a command runs
on, and the one fault condition that applies to a command (60_exceptions.md R145). -/

namespace Sys2Proof.Machine

/-- What holds in every state a block reaches from RESET. -/
structure State.Inv (s : State) : Prop where
  /-- `NLANES` is 1..256 (00_scope.md R5). -/
  laneCount : 1 ≤ s.lanes.length ∧ s.lanes.length ≤ Config.maxLanes
  /-- LANEID of lane p is p (70_reset_and_hazards.md R160). -/
  laneIds : ∀ (p : Nat) (ln : Lane), s.lanes[p]? = some ln → ln.laneId = BitVec.ofNat 8 p
  /-- The legal values of FIRSTERR are 0..4 (10_state.md R16). -/
  firstErrLegal : ∀ ln ∈ s.lanes, ln.firstErr.toNat ≤ 4
  /-- A lane that answered a fault drove DOUT = 0 and has FIRSTERR set (60_exceptions.md R146, R147). -/
  faultLatched : ∀ ln ∈ s.lanes, ∀ (c : ErrCode) (d : Label), ln.response = some ⟨.err c, d⟩ → d = 0 ∧ ln.firstErr ≠ 0
  /-- CTXV = 1 means that RK is `KeyExpand` of some key, which is `RK[0]` (10_state.md R15, R11). -/
  contextExpanded : ∀ rk : Schedule, s.ctx = some rk → rk = keyExpand rk[0]

/-- No lane has faulted since RESET (60_exceptions.md R147). -/
def State.FaultFree (s : State) : Prop :=
  ∀ ln ∈ s.lanes, ln.firstErr = 0

/-- Lane `ln` is the one whose command is being executed. -/
abbrev State.Issuing (s : State) (ln : Lane) : Prop :=
  s.lanes[s.lane]? = some ln

/-- The same state with a command's lane and DIN on the port. -/
def State.onPort (s : State) (p : Nat) (din : Label) : State :=
  { s with lane := p, din := din }

/-- The issuing lane becomes `ln` and answers (ST, DOUT); nothing else of `s` changes. -/
def State.answered (s : State) (ln : Lane) (st : Status) (dout : Label) : State :=
  { s with lanes := s.lanes.set s.lane { ln with response := some ⟨st, dout⟩ } }

/-- `L[rd]` of the issuing lane `ln` becomes `v`, its LV bit 1, and the lane answers `OK` with DOUT = 0; nothing else
of `s` changes. -/
def State.loaded (s : State) (ln : Lane) (rd : LReg) (v : Label) : State :=
  s.answered { ln with labels := ln.labels.set rd (some v) } .ok 0

/-- The issuing lane `ln` faults with code `c`: ST = c, DOUT = 0, FIRSTERR takes c if it was 0; nothing else of `s`
changes (60_exceptions.md R146, R147). -/
def State.faulted (s : State) (ln : Lane) (c : ErrCode) : State :=
  s.answered { ln with firstErr := if ln.firstErr = 0 then c.bits else ln.firstErr } (.err c) 0

end Sys2Proof.Machine

namespace Sys2Proof

open Sys2Proof.Machine

/-- The source label registers a command names, in its fields `ra`, `rb`, `rc` (30_encoding.md R53, R62). -/
def Instr.sources : Instr → List LReg
  | .mkc => []
  | .ctxclr => []
  | .rdrk _ => []
  | .enc _ ra => [ra]
  | .ldl _ => []
  | .stl ra => [ra]
  | .xor _ ra rb => [ra, rb]
  | .dbl _ ra => [ra]
  | .quad _ ra => [ra]
  | .ctwk _ ra rb _ => [ra, rb]
  | .gate _ ra rb rc _ => [ra, rb, rc]
  | .rdst => []

/-- The destination label register a command names, if it has one (R53). -/
def Instr.dest : Instr → Option LReg
  | .mkc => none
  | .ctxclr => none
  | .rdrk _ => none
  | .enc rd _ => some rd
  | .ldl rd => some rd
  | .stl _ => none
  | .xor rd _ _ => some rd
  | .dbl rd _ => some rd
  | .quad rd _ => some rd
  | .ctwk rd _ _ _ => some rd
  | .gate rd _ _ _ _ => some rd
  | .rdst => none

/-- The commands that read the cipher context and need it to exist: `RDRK`, `ENC`, `GATE` (60_exceptions.md R141). -/
def Instr.readsContext : Instr → Bool
  | .mkc => false
  | .ctxclr => false
  | .rdrk _ => true
  | .enc _ _ => true
  | .ldl _ => false
  | .stl _ => false
  | .xor _ _ _ => false
  | .dbl _ _ => false
  | .quad _ _ => false
  | .ctwk _ _ _ _ => false
  | .gate _ _ _ _ _ => true
  | .rdst => false

/-- The command with its tweak replaced by 0: what is left are the opcode and the register and index fields. -/
def Instr.eraseTweak : Instr → Instr
  | .ctwk rd ra rb _ => .ctwk rd ra rb 0
  | .gate rd ra rb rc _ => .gate rd ra rb rc 0
  | .mkc => .mkc
  | .ctxclr => .ctxclr
  | .rdrk idx => .rdrk idx
  | .enc rd ra => .enc rd ra
  | .ldl rd => .ldl rd
  | .stl ra => .stl ra
  | .xor rd ra rb => .xor rd ra rb
  | .dbl rd ra => .dbl rd ra
  | .quad rd ra => .quad rd ra
  | .rdst => .rdst

/-- The commands that write the shared context: `MKC`, `CTXCLR` (20_memory.md R37). -/
def Instr.writesContext (i : Instr) : Prop :=
  i = .mkc ∨ i = .ctxclr

/-- The commands whose effect or answer depends on the shared context or changes it: `MKC`, `CTXCLR`, `RDRK`, `ENC`,
`GATE`, `RDST` (20_memory.md R41). -/
def Instr.touchesContext (i : Instr) : Prop :=
  i = .mkc ∨ i = .ctxclr ∨ i = .rdst ∨ i.readsContext = true

/-- 60_exceptions.md R145: the one fault a command reports, in the order decode, context state, source operands. -/
def Instr.faultOf (i : Instr) (s : State) (ln : Lane) : Option ErrCode :=
  if i.wellFormed = false then some .errIllegal
  else if i.readsContext = true ∧ s.ctxv = false then some .errNoctx
  else if i = .mkc ∧ s.ctxv = true then some .errCtxlocked
  else if ∃ r ∈ i.sources, ln.lv r = false then some .errUninit
  else none

end Sys2Proof
end

