-- ==== Sys2Proof/Certificates/Slice0/Obligations.lean ====
section
/-! DEFINITION. The statements for the provers, in the order encoding, steps and faults, commands, functions, gate,
lanes, whole-machine rules. Each docstring names the rule of spec/ it formalises. -/

open Sys2Proof Sys2Proof.Machine

/-! ## Encoding -/

/-- 30_encoding.md section 7: the worked encodings decode to the commands they are listed with. -/
def Obligations.WorkedEncodingsDecode : Prop :=
  decode 0x0000000001000000 = .ok .mkc ∧ decode 0x0000000002000000 = .ok .ctxclr ∧
    decode 0x0000000003000E00 = .ok (.rdrk 14) ∧ decode 0x0000000004B00000 = .ok (.enc 5 4) ∧
    decode 0x0000000010200000 = .ok (.ldl 1) ∧ decode 0x0000000011180000 = .ok (.stl 6) ∧
    decode 0x0000000012FF8000 = .ok (.xor 7 7 7) ∧ decode 0x0000000013440000 = .ok (.dbl 2 1) ∧
    decode 0x0000000014440000 = .ok (.quad 2 1) ∧ decode 0x0000000715808000 = .ok (.ctwk 4 0 1 7) ∧
    decode 0x000000072060A000 = .ok (.gate 3 0 1 2 7) ∧ decode 0x0000000030000000 = .ok .rdst

/-- 30_encoding.md R51 to R56: decoding the word of any well-formed command gives the command back. -/
def Obligations.DecodeOfEncode : Prop :=
  ∀ i : Instr, i.wellFormed = true → decode (encode i) = .ok i

/-- 30_encoding.md R55: a word that decodes to a command is that command's one word, and the command is well formed. -/
def Obligations.EncodeOfDecode : Prop :=
  ∀ (cw : CmdWord) (i : Instr), decode cw = .ok i → encode i = cw ∧ i.wellFormed = true

/-- 30_encoding.md R53: a word spells the command of a row exactly when `(CW & mask) = match`, and for `RDRK` also
`idx <= 14`; and the rows are disjoint. -/
def Obligations.WordSpellsTableRow : Prop :=
  (∀ row ∈ opcodeTable, ∀ cw : CmdWord,
      (∃ i : Instr, decode cw = .ok i ∧ mnemonicOf i = row.mnemonic) ↔ row.spells cw = true) ∧
    ∀ row ∈ opcodeTable, ∀ row' ∈ opcodeTable, ∀ cw : CmdWord,
      row.spells cw = true → row'.spells cw = true → row = row'

/-- 60_exceptions.md R144: each status has its 4-bit code, and the codes 5 to 15 belong to none. -/
def Obligations.StatusCodes : Prop :=
  (∀ st : Status, Status.ofBits st.bits = some st) ∧ (∀ b : BitVec 4, 5 ≤ b.toNat → Status.ofBits b = none) ∧
    Status.bits .ok = 0 ∧ Status.bits (.err .errIllegal) = 1 ∧ Status.bits (.err .errNoctx) = 2 ∧
    Status.bits (.err .errCtxlocked) = 3 ∧ Status.bits (.err .errUninit) = 4

/-! ## Steps, reset and faults -/

/-- 30_encoding.md R50, 20_memory.md R40: a presented word that decodes to a command runs as that command on its lane
with its DIN, taken off what the host still has to present. -/
def Obligations.StepRunsDecodedCommand : Prop :=
  ∀ (s : State) (p : Nat) (cw : CmdWord) (din : Label) (rest : List HostEvent) (i : Instr),
    s.pending = .command p cw din :: rest → decode cw = .ok i →
      step s = exec i { s with lane := p, din := din, pending := rest }

/-- 60_exceptions.md R150: a block that is issued no command does nothing. -/
def Obligations.IdleStepChangesNothing : Prop :=
  ∀ s : State, s.pending = [] → step s = .next s

/-- 60_exceptions.md R140, 30_encoding.md R55 to R57: a word that no row of the opcode table spells faults with
`ERR_ILLEGAL` in every state and whatever DIN is. -/
def Obligations.IllegalWordFaults : Prop :=
  ∀ (s : State) (p : Nat) (cw : CmdWord) (din : Label) (rest : List HostEvent) (ln : Lane),
    s.pending = .command p cw din :: rest → s.lanes[p]? = some ln →
    (∀ row ∈ opcodeTable, row.spells cw = false) →
      step s = .next (State.faulted { s with lane := p, din := din, pending := rest } ln .errIllegal)

/-- 30_encoding.md R57: a word whose opcode is none of the twelve spells no command: the decoder rejects it, for
whatever reason. -/
def Obligations.ReservedOpcodeRejected : Prop :=
  ∀ cw : CmdWord,
    cw.extractLsb' 24 8 ∉ [0x01#8, 0x02#8, 0x03#8, 0x04#8, 0x10#8, 0x11#8, 0x12#8, 0x13#8, 0x14#8, 0x15#8, 0x20#8, 0x30#8] →
      ∃ e : DecodeError, decode cw = .error e

/-- 70_reset_and_hazards.md R160: RESET destroys the context, clears every LV bit and FIRSTERR of every lane, keeps
LANEID; `RDST` on lane p then reads LANEID << 16. That the response ports read as absent and that the events after RESET
stay pending is the model's (log entries 3, 12). -/
def Obligations.ResetEventClearsBlock : Prop :=
  ∀ (s : State) (rest : List HostEvent), s.pending = .reset :: rest →
    ∃ t : State, step s = .next t ∧ t.ctx = none ∧ t.pending = rest ∧ t.lanes.length = s.lanes.length ∧
      ∀ (p : Nat) (ln : Lane), s.lanes[p]? = some ln →
        ∃ ln' : Lane, t.lanes[p]? = some ln' ∧ (∀ r : LReg, ln'.lv r = false) ∧ ln'.firstErr = 0 ∧
          ln'.laneId = ln.laneId ∧ ln'.response = none ∧
          ∀ din : Label, exec .rdst (t.onPort p din) =
            .next ((t.onPort p din).answered ln' .ok (ln.laneId.setWidth 128 <<< 16))

/-- 70_reset_and_hazards.md R160: what a block of n lanes (1 to 256) is right after RESET. That nothing is pending and
no response stands on a port is the model's (log entries 1, 3). -/
def Obligations.ResetStateOfEveryLaneCount : Prop :=
  ∀ n : Nat, 1 ≤ n → n ≤ 256 →
    (State.resetWith n).ctx = none ∧ (State.resetWith n).pending = [] ∧ (State.resetWith n).lanes.length = n ∧
      ∀ p : Nat, p < n →
        ∃ ln : Lane, (State.resetWith n).lanes[p]? = some ln ∧ ln.laneId.toNat = p ∧ ln.firstErr = 0 ∧
          ln.response = none ∧ ∀ r : LReg, ln.lv r = false

/-- A command presented on a port the block does not have stops the model, whatever the command is. The spec numbers
the lanes 0..NLANES-1 (60_exceptions.md R150) and says nothing of another port: the stop is the model's (log entry 5). -/
def Obligations.MissingLaneStops : Prop :=
  ∀ (i : Instr) (s : State), s.lanes.length ≤ s.lane → exec i s = .fault .noSuchLane

/-- 60_exceptions.md R145: of several fault conditions a command reports exactly one, in the order decode, context
state, source operands; an illegal word is examined no further; with no fault condition the command ends with `OK`; and
RESET overrides everything: after it no fault is on record, whatever was pending. -/
def Obligations.FaultPriority : Prop :=
  (∀ (s : State) (p : Nat) (cw : CmdWord) (din : Label) (rest : List HostEvent) (ln : Lane) (e : DecodeError),
      s.pending = .command p cw din :: rest → s.lanes[p]? = some ln → decode cw = .error e →
        step s = .next (State.faulted { s with lane := p, din := din, pending := rest } ln .errIllegal)) ∧
    (∀ (i : Instr) (s : State) (ln : Lane), s.Issuing ln →
      (∀ c : ErrCode, i.faultOf s ln = some c → exec i s = .next (s.faulted ln c)) ∧
        (i.faultOf s ln = none →
          ∃ (t : State) (ln' : Lane) (d : Label), exec i s = .next t ∧ t.lanes[s.lane]? = some ln' ∧
            ln'.response = some ⟨.ok, d⟩)) ∧
    ∀ (s : State) (rest : List HostEvent), s.pending = .reset :: rest →
      ∃ t : State, step s = .next t ∧ t.FaultFree

/-- 60_exceptions.md R146: a presented command that answers with a fault code wrote no label register, no LV bit, no
round key, not CTXV and no other lane; DOUT is 0, and of FIRSTERR it wrote what R147 says. -/
def Obligations.FaultingCommandIsNullified : Prop :=
  ∀ (s t : State) (p : Nat) (cw : CmdWord) (din : Label) (rest : List HostEvent) (ln' : Lane) (c : ErrCode) (d : Label),
    s.pending = .command p cw din :: rest → step s = .next t → t.lanes[p]? = some ln' →
    ln'.response = some ⟨.err c, d⟩ →
      d = 0 ∧ t.ctx = s.ctx ∧ t.pending = rest ∧ t.lanes.length = s.lanes.length ∧
        (∀ q : Nat, q ≠ p → t.lanes[q]? = s.lanes[q]?) ∧
        ∃ ln : Lane, s.lanes[p]? = some ln ∧ ln'.labels = ln.labels ∧ ln'.laneId = ln.laneId ∧
          ln'.firstErr = if ln.firstErr = 0 then c.bits else ln.firstErr

/-- 10_state.md R17: a FIRSTERR that is not 0 is changed by no step but RESET. -/
def Obligations.FirstErrIsSticky : Prop :=
  ∀ (s t : State) (p : Nat) (ln : Lane),
    step s = .next t → (∀ rest : List HostEvent, s.pending ≠ .reset :: rest) →
    s.lanes[p]? = some ln → ln.firstErr ≠ 0 →
      ∃ ln' : Lane, t.lanes[p]? = some ln' ∧ ln'.firstErr = ln.firstErr

/-- 60_exceptions.md R147: after a step other than RESET, FIRSTERR = 0 on every lane is evidence that it was so before
and that the command of the step, if there was one, ended with `OK`. -/
def Obligations.FaultFreeEndIsEvidence : Prop :=
  ∀ s t : State, step s = .next t → (∀ rest : List HostEvent, s.pending ≠ .reset :: rest) → t.FaultFree →
    s.FaultFree ∧
      ∀ (p : Nat) (cw : CmdWord) (din : Label) (rest : List HostEvent), s.pending = .command p cw din :: rest →
        ∃ (ln' : Lane) (d : Label), t.lanes[p]? = some ln' ∧ ln'.response = some ⟨.ok, d⟩

/-! ## The commands -/

/-- 40_cipher_context.md R70, R71, R75, 60_exceptions.md R142: `MKC` builds the whole schedule from DIN in one step,
each round key one `KeyStep` from the one before with its round constant, and the fourteen round constants are those of
R70; with a context present it faults and changes nothing but FIRSTERR. -/
def Obligations.MkcCommand : Prop :=
  (∀ cw : CmdWord, decode cw = .ok .mkc ↔ cw = 0x01000000) ∧
    (List.range 14).map (fun i => rcon (i + 1)) =
      [0x01#8, 0x02, 0x04, 0x08, 0x10, 0x20, 0x40, 0x80, 0x1B, 0x36, 0x6C, 0xD8, 0xAB, 0x4D] ∧
    ∀ (s : State) (ln : Lane), s.Issuing ln →
      (s.ctx = none → ∃ rk : Schedule, rk[0] = s.din ∧
        (∀ (i : Nat) (_ : i < 14), rk[i + 1] = keyStep rk[i] (rcon (i + 1))) ∧
        exec .mkc s = .next (State.answered { s with ctx := some rk } ln .ok 0)) ∧
      (∀ rk : Schedule, s.ctx = some rk → exec .mkc s = .next (s.faulted ln .errCtxlocked))

/-- 40_cipher_context.md R72: `CTXCLR` always succeeds and leaves no context; after it `RDRK`, `ENC` and `GATE` fault
with `ERR_NOCTX` and `MKC` is accepted. -/
def Obligations.CtxclrCommand : Prop :=
  (∀ cw : CmdWord, decode cw = .ok .ctxclr ↔ cw = 0x02000000) ∧
    ∀ (s : State) (ln : Lane), s.Issuing ln →
      ∃ t : State, t = State.answered { s with ctx := none } ln .ok 0 ∧ exec .ctxclr s = .next t ∧
        ∀ (p : Nat) (din : Label) (ln' : Lane), t.lanes[p]? = some ln' →
          (∀ i : Instr, i.wellFormed = true → i.readsContext = true →
            exec i (t.onPort p din) = .next ((t.onPort p din).faulted ln' .errNoctx)) ∧
          exec .mkc (t.onPort p din) =
            .next (State.answered { t.onPort p din with ctx := some (keyExpand din) } ln' .ok 0)

/-- 40_cipher_context.md R73: `RDRK #idx` answers `RK[idx]`, for idx = 0 the key `MKC` took, and changes no state; it
faults with `ERR_ILLEGAL` for idx = 15 (whatever the context), with `ERR_NOCTX` without a context. -/
def Obligations.RdrkCommand : Prop :=
  (∀ (cw : CmdWord) (idx : RkIdx),
      decode cw = .ok (.rdrk idx) ↔ idx ≠ 15 ∧ cw = 0x03000000 ||| BitVec.ofNat 64 idx.val <<< 8) ∧
    ∀ (s : State) (ln : Lane), s.Issuing ln →
      exec (.rdrk 15) s = .next (s.faulted ln .errIllegal) ∧
      ∀ (idx : RkIdx) (_ : idx.val < 15),
        (s.ctx = none → exec (.rdrk idx) s = .next (s.faulted ln .errNoctx)) ∧
        (∀ rk : Schedule, s.ctx = some rk → exec (.rdrk idx) s = .next (s.answered ln .ok rk[idx.val])) ∧
        ∀ key : Label, s.ctx = some (keyExpand key) → exec (.rdrk 0) s = .next (s.answered ln .ok key)

/-- 40_cipher_context.md R74: `ENC Ld, La` writes `Encrypt(RK, L[ra])` to `L[rd]`; `ERR_NOCTX` comes before
`ERR_UNINIT`. -/
def Obligations.EncCommand : Prop :=
  ∀ rd ra : LReg,
    (∀ cw : CmdWord, decode cw = .ok (.enc rd ra) ↔
      cw = 0x04000000 ||| BitVec.ofNat 64 rd.val <<< 21 ||| BitVec.ofNat 64 ra.val <<< 18) ∧
    ∀ (s : State) (ln : Lane), s.Issuing ln →
      (s.ctx = none → exec (.enc rd ra) s = .next (s.faulted ln .errNoctx)) ∧
      ∀ rk : Schedule, s.ctx = some rk →
        (ln.labels[ra] = none → exec (.enc rd ra) s = .next (s.faulted ln .errUninit)) ∧
        ∀ a : Label, ln.labels[ra] = some a → exec (.enc rd ra) s = .next (s.loaded ln rd (encrypt rk a))

/-- 41_label_alu.md R105: `LDL Ld` writes DIN to `L[rd]`, whatever DIN and the register's old content are. -/
def Obligations.LdlCommand : Prop :=
  ∀ rd : LReg,
    (∀ cw : CmdWord, decode cw = .ok (.ldl rd) ↔ cw = 0x10000000 ||| BitVec.ofNat 64 rd.val <<< 21) ∧
    ∀ (s : State) (ln : Lane), s.Issuing ln → exec (.ldl rd) s = .next (s.loaded ln rd s.din)

/-- 30_encoding.md R63: `LDZ Ld`, presented on a lane, loads the zero label. -/
def Obligations.LdzLoadsZero : Prop :=
  ∀ (s : State) (p : Nat) (rd : LReg) (rest : List HostEvent) (ln : Lane),
    s.pending = ldz p rd :: rest → s.lanes[p]? = some ln →
      step s = .next (State.loaded { s with lane := p, din := 0, pending := rest } ln rd 0)

/-- 41_label_alu.md R106: `STL La` answers `L[ra]` and changes no state; it faults with `ERR_UNINIT` where LV = 0. -/
def Obligations.StlCommand : Prop :=
  ∀ ra : LReg,
    (∀ cw : CmdWord, decode cw = .ok (.stl ra) ↔ cw = 0x11000000 ||| BitVec.ofNat 64 ra.val <<< 18) ∧
    ∀ (s : State) (ln : Lane), s.Issuing ln →
      (ln.labels[ra] = none → exec (.stl ra) s = .next (s.faulted ln .errUninit)) ∧
      ∀ a : Label, ln.labels[ra] = some a → exec (.stl ra) s = .next (s.answered ln .ok a)

/-- 41_label_alu.md R107: `XOR Ld, La, Lb`; each bit of the result is the exclusive or of the operands' bits. -/
def Obligations.XorCommand : Prop :=
  ∀ rd ra rb : LReg,
    (∀ cw : CmdWord, decode cw = .ok (.xor rd ra rb) ↔
      cw = 0x12000000 ||| BitVec.ofNat 64 rd.val <<< 21 ||| BitVec.ofNat 64 ra.val <<< 18 |||
        BitVec.ofNat 64 rb.val <<< 15) ∧
    ∀ (s : State) (ln : Lane), s.Issuing ln →
      (ln.labels[ra] = none ∨ ln.labels[rb] = none → exec (.xor rd ra rb) s = .next (s.faulted ln .errUninit)) ∧
      ∀ a b : Label, ln.labels[ra] = some a → ln.labels[rb] = some b →
        ∃ v : Label, (∀ i < 128, v.getLsbD i = (a.getLsbD i ^^ b.getLsbD i)) ∧
          exec (.xor rd ra rb) s = .next (s.loaded ln rd v)

/-- 41_label_alu.md R108, R101: `DBL Ld, La` writes twice the label modulo 2^128, the top bit discarded. -/
def Obligations.DblCommand : Prop :=
  ∀ rd ra : LReg,
    (∀ cw : CmdWord, decode cw = .ok (.dbl rd ra) ↔
      cw = 0x13000000 ||| BitVec.ofNat 64 rd.val <<< 21 ||| BitVec.ofNat 64 ra.val <<< 18) ∧
    ∀ (s : State) (ln : Lane), s.Issuing ln →
      (ln.labels[ra] = none → exec (.dbl rd ra) s = .next (s.faulted ln .errUninit)) ∧
      ∀ a : Label, ln.labels[ra] = some a →
        exec (.dbl rd ra) s = .next (s.loaded ln rd (BitVec.ofNat 128 (2 * a.toNat)))

/-- 41_label_alu.md R109, R102: `QUAD Ld, La` writes four times the label modulo 2^128, the top two bits discarded. -/
def Obligations.QuadCommand : Prop :=
  ∀ rd ra : LReg,
    (∀ cw : CmdWord, decode cw = .ok (.quad rd ra) ↔
      cw = 0x14000000 ||| BitVec.ofNat 64 rd.val <<< 21 ||| BitVec.ofNat 64 ra.val <<< 18) ∧
    ∀ (s : State) (ln : Lane), s.Issuing ln →
      (ln.labels[ra] = none → exec (.quad rd ra) s = .next (s.faulted ln .errUninit)) ∧
      ∀ a : Label, ln.labels[ra] = some a →
        exec (.quad rd ra) s = .next (s.loaded ln rd (BitVec.ofNat 128 (4 * a.toNat)))

/-- 41_label_alu.md R110, R104: `CTWK Ld, La, Lb, #t` writes `2a ^ 4b ^ t`, context or not. -/
def Obligations.CtwkCommand : Prop :=
  ∀ (rd ra rb : LReg) (t : Tweak),
    (∀ cw : CmdWord, decode cw = .ok (.ctwk rd ra rb t) ↔
      cw = t.setWidth 64 <<< 32 ||| 0x15000000 ||| BitVec.ofNat 64 rd.val <<< 21 |||
        BitVec.ofNat 64 ra.val <<< 18 ||| BitVec.ofNat 64 rb.val <<< 15) ∧
    ∀ (s : State) (ln : Lane), s.Issuing ln →
      (ln.labels[ra] = none ∨ ln.labels[rb] = none → exec (.ctwk rd ra rb t) s = .next (s.faulted ln .errUninit)) ∧
      ∀ a b : Label, ln.labels[ra] = some a → ln.labels[rb] = some b →
        exec (.ctwk rd ra rb t) s = .next (s.loaded ln rd
          (BitVec.ofNat 128 (2 * a.toNat) ^^^ BitVec.ofNat 128 (4 * b.toNat) ^^^ BitVec.ofNat 128 t.toNat))

/-- 42_gate_engine.md R120, R121: `GATE Ld, La, Lb, Lc, #t` writes `Encrypt(RK, k) ^ k ^ L[rc]` with
`k = 2a ^ 4b ^ t`; `ERR_NOCTX` comes before `ERR_UNINIT`. -/
def Obligations.GateCommand : Prop :=
  ∀ (rd ra rb rc : LReg) (t : Tweak),
    (∀ cw : CmdWord, decode cw = .ok (.gate rd ra rb rc t) ↔
      cw = t.setWidth 64 <<< 32 ||| 0x20000000 ||| BitVec.ofNat 64 rd.val <<< 21 |||
        BitVec.ofNat 64 ra.val <<< 18 ||| BitVec.ofNat 64 rb.val <<< 15 ||| BitVec.ofNat 64 rc.val <<< 12) ∧
    ∀ (s : State) (ln : Lane), s.Issuing ln →
      (s.ctx = none → exec (.gate rd ra rb rc t) s = .next (s.faulted ln .errNoctx)) ∧
      ∀ rk : Schedule, s.ctx = some rk →
        (ln.labels[ra] = none ∨ ln.labels[rb] = none ∨ ln.labels[rc] = none →
          exec (.gate rd ra rb rc t) s = .next (s.faulted ln .errUninit)) ∧
        ∀ a b c k : Label, ln.labels[ra] = some a → ln.labels[rb] = some b → ln.labels[rc] = some c →
          k = BitVec.ofNat 128 (2 * a.toNat) ^^^ BitVec.ofNat 128 (4 * b.toNat) ^^^ BitVec.ofNat 128 t.toNat →
          exec (.gate rd ra rb rc t) s = .next (s.loaded ln rd (encrypt rk k ^^^ k ^^^ c))

/-- 43_system.md R130, 10_state.md R16: `RDST` answers the status word and changes no state, not FIRSTERR either. -/
def Obligations.RdstCommand : Prop :=
  (∀ cw : CmdWord, decode cw = .ok .rdst ↔ cw = 0x30000000) ∧
    ∀ (s : State) (ln : Lane), s.Issuing ln →
      ∃ v : Label, exec .rdst s = .next (s.answered ln .ok v) ∧
        v.getLsbD 0 = s.ctx.isSome ∧ v.extractLsb' 1 3 = 0#3 ∧ v.extractLsb' 4 4 = ln.firstErr ∧
        (∀ i : LReg, v.getLsbD (8 + i.val) = ln.labels[i].isSome) ∧
        v.extractLsb' 16 8 = ln.laneId ∧ v.extractLsb' 24 104 = 0#104

/-! ## The functions of the cipher and the label algebra -/

/-- 40_cipher_context.md R78, R87: the S-box table is the affine map of the multiplicative inverse in GF(2^8), entry
by entry, and a bijection on bytes. -/
def Obligations.SboxIsAffineOfInverse : Prop :=
  ginv 0 = 0 ∧ (∀ a : Byte, a ≠ 0 → gmul a (ginv a) = 1) ∧
    (∀ a : Byte, sbox a = ginv a ^^^ (ginv a).rotateLeft 1 ^^^ (ginv a).rotateLeft 2 ^^^ (ginv a).rotateLeft 3 ^^^
      (ginv a).rotateLeft 4 ^^^ 0x63) ∧
    Function.Bijective sbox

/-- 40_cipher_context.md R76, R77: the four words of a round key from the words of the one before; RotWord and SubWord
are spelled out on the bytes of the last word. -/
def Obligations.KeyStepWords : Prop :=
  ∀ (prev : Label) (rc : Byte) (temp : Word32),
    temp = (sbox (blockByte prev 13) ^^^ rc) ++ sbox (blockByte prev 14) ++ sbox (blockByte prev 15) ++
      sbox (blockByte prev 12) →
    word32 (keyStep prev rc) 0 = word32 prev 0 ^^^ temp ∧
      ∀ j < 3, word32 (keyStep prev rc) (j + 1) = word32 prev (j + 1) ^^^ word32 (keyStep prev rc) j

/-- 40_cipher_context.md R79 to R84 and 20_memory.md R30: every byte of a full round, from the sixteen bytes of the
block and of the round key. -/
def Obligations.FullRoundBytes : Prop :=
  ∀ (x rk : Label) (c : Nat) (a : Nat → Byte), c < 4 →
    (∀ r < 4, a r = sbox (blockByte x (r + 4 * ((c + r) % 4)))) →
      blockByte (fullRound x rk) (4 * c) = xtime (a 0) ^^^ (xtime (a 1) ^^^ a 1) ^^^ a 2 ^^^ a 3 ^^^ blockByte rk (4 * c) ∧
      blockByte (fullRound x rk) (4 * c + 1) =
        a 0 ^^^ xtime (a 1) ^^^ (xtime (a 2) ^^^ a 2) ^^^ a 3 ^^^ blockByte rk (4 * c + 1) ∧
      blockByte (fullRound x rk) (4 * c + 2) =
        a 0 ^^^ a 1 ^^^ xtime (a 2) ^^^ (xtime (a 3) ^^^ a 3) ^^^ blockByte rk (4 * c + 2) ∧
      blockByte (fullRound x rk) (4 * c + 3) =
        (xtime (a 0) ^^^ a 0) ^^^ a 1 ^^^ a 2 ^^^ xtime (a 3) ^^^ blockByte rk (4 * c + 3)

/-- 40_cipher_context.md R79 to R81, R83, R85: every byte of the final round, which mixes no columns. -/
def Obligations.FinalRoundBytes : Prop :=
  ∀ (x rk : Label) (r c : Nat), r < 4 → c < 4 →
    blockByte (finalRound x rk) (r + 4 * c) =
      sbox (blockByte x (r + 4 * ((c + r) % 4))) ^^^ blockByte rk (r + 4 * c)

/-- 40_cipher_context.md R86: key 0, thirteen full rounds with keys 1 to 13, one final round with key 14. -/
def Obligations.EncryptIsFourteenRounds : Prop :=
  ∀ (rk : Schedule) (x : Label) (st : Nat → Label),
    st 0 = x ^^^ rk[0] → (∀ (i : Nat) (_ : i < 13), st (i + 1) = fullRound (st i) rk[i + 1]) →
      encrypt rk x = finalRound (st 13) rk[14]

/-- 40_cipher_context.md R89: for fixed round keys `Encrypt` is a bijection on 128-bit values. -/
def Obligations.EncryptIsBijective : Prop :=
  ∀ rk : Schedule, Function.Bijective (encrypt rk)

/-- 41_label_alu.md R101, R102: `Dbl` and `Quad` word by word, the one or two bits carried from the low word into the
high word in order. -/
def Obligations.DoubleAndQuadrupleCarry : Prop :=
  ∀ (a : Label) (hi lo : BitVec 64), hi = a.extractLsb' 64 64 → lo = a.extractLsb' 0 64 →
    labelDbl a = (hi <<< 1 ||| lo >>> 63) ++ lo <<< 1 ∧ labelQuad a = (hi <<< 2 ||| lo >>> 62) ++ lo <<< 2 ∧
      (labelDbl a).toNat = 2 * a.toNat % 2 ^ 128 ∧ (labelQuad a).toNat = 4 * a.toNat % 2 ^ 128

/-- 41_label_alu.md R113: the eight laws of the label algebra. -/
def Obligations.LabelAlgebraLaws : Prop :=
  ∀ (a b c d : Label) (t t' : Tweak),
    labelXor (labelXor a b) b = a ∧
    labelXor a b = labelXor b a ∧ labelXor (labelXor a b) c = labelXor a (labelXor b c) ∧
    labelXor a a = 0 ∧ labelXor a 0 = a ∧
    labelQuad a = labelDbl (labelDbl a) ∧
    labelDbl (labelXor a b) = labelXor (labelDbl a) (labelDbl b) ∧
    labelQuad (labelXor a b) = labelXor (labelQuad a) (labelQuad b) ∧
    labelDbl a = labelDbl (a ^^^ 1 <<< 127) ∧
    labelQuad a = labelQuad (a ^^^ 1 <<< 127) ∧ labelQuad a = labelQuad (a ^^^ 1 <<< 126) ∧
    combineTweak a b t = combineTweak (a ^^^ 1 <<< 127) b t ∧
    combineTweak a b t = combineTweak a (b ^^^ 1 <<< 127) t ∧
    combineTweak a b t = combineTweak a (b ^^^ 1 <<< 126) t ∧
    combineTweak a b t = combineTweak (labelXor a (labelDbl d)) (labelXor b d) t ∧
    (combineTweak a b t).getLsbD 0 = t.getLsbD 0 ∧
    (combineTweak a b t).getLsbD 1 = (a.getLsbD 0 ^^ t.getLsbD 1) ∧
    (combineTweak a b t).extractLsb' 32 96 = (combineTweak a b t').extractLsb' 32 96

/-! ## The gate engine -/

/-- 42_gate_engine.md R122, items 1 to 3: the pad does not depend on labelC, and applying the function to its own
result as labelC gives labelC back. -/
def Obligations.GatePadLaws : Prop :=
  ∀ (rk : Schedule) (a b c c' : Label) (t : Tweak),
    processGate rk a b c t ^^^ c = processGate rk a b 0 t ∧
      processGate rk a b (processGate rk a b c t) t = c ∧
      processGate rk a b c t ^^^ processGate rk a b c' t = c ^^^ c'

/-- 42_gate_engine.md R123: the result does not depend on a[127], b[127] or b[126], and pairs with the same
`Dbl(a) ^ Quad(b)` give the same pad. -/
def Obligations.GateIgnoresDiscardedBits : Prop :=
  ∀ (rk : Schedule) (a b a' b' c : Label) (t : Tweak),
    processGate rk (a ^^^ 1 <<< 127) b c t = processGate rk a b c t ∧
      processGate rk a (b ^^^ 1 <<< 127) c t = processGate rk a b c t ∧
      processGate rk a (b ^^^ 1 <<< 126) c t = processGate rk a b c t ∧
      (labelDbl a ^^^ labelQuad b = labelDbl a' ^^^ labelQuad b' →
        processGate rk a b c t = processGate rk a' b' c t)

/-- 42_gate_engine.md R125: with the same context, source values and tweak, `GATE` writes the same value on any lane,
in any state, whichever registers hold the values. -/
def Obligations.GateIsDeterministic : Prop :=
  ∀ (s s' : State) (ln ln' : Lane) (rd ra rb rc rd' ra' rb' rc' : LReg) (t : Tweak) (rk : Schedule) (a b c : Label),
    s.Issuing ln → s'.Issuing ln' → s.ctx = some rk → s'.ctx = some rk →
    ln.labels[ra] = some a → ln.labels[rb] = some b → ln.labels[rc] = some c →
    ln'.labels[ra'] = some a → ln'.labels[rb'] = some b → ln'.labels[rc'] = some c →
      ∃ v : Label, exec (.gate rd ra rb rc t) s = .next (s.loaded ln rd v) ∧
        exec (.gate rd' ra' rb' rc' t) s' = .next (s'.loaded ln' rd' v)

/-- 42_gate_engine.md R122 item 2 on the block: a `GATE` followed by a `GATE` with the same labels and tweak and the
first result as labelC leaves the original labelC. The first destination holds neither source still needed. -/
def Obligations.EvaluateUndoesGarble : Prop :=
  ∀ (s : State) (ln : Lane) (rk : Schedule) (a b c : Label) (rd ra rb rc re : LReg) (t : Tweak),
    s.Issuing ln → s.ctx = some rk → ln.labels[ra] = some a → ln.labels[rb] = some b → ln.labels[rc] = some c →
    rd ≠ ra → rd ≠ rb →
      ∃ (g e : State) (ln' : Lane), exec (.gate rd ra rb rc t) s = .next g ∧ exec (.gate re ra rb rd t) g = .next e ∧
        e.Issuing ln' ∧ ln'.labels[re] = some c

/-- 42_gate_engine.md R120, the symmetry scenario: `GATE` has the effect on Ld of `CTWK Lk, La, Lb, #t ; ENC Lp, Lk ;
XOR Lx, Lp, Lk ; XOR Ld, Lx, Lc`, where the registers in between overwrite no value still needed. -/
def Obligations.GateEqualsFourCommands : Prop :=
  ∀ (s : State) (ln : Lane) (rk : Schedule) (a b c : Label) (rd ra rb rc kk pp xx : LReg) (t : Tweak),
    s.Issuing ln → s.ctx = some rk → ln.labels[ra] = some a → ln.labels[rb] = some b → ln.labels[rc] = some c →
    kk ≠ rc → pp ≠ kk → pp ≠ rc → xx ≠ rc →
      ∃ (g s₁ s₂ s₃ s₄ : State) (lnGate lnFour : Lane) (v : Label),
        exec (.gate rd ra rb rc t) s = .next g ∧
        exec (.ctwk kk ra rb t) s = .next s₁ ∧ exec (.enc pp kk) s₁ = .next s₂ ∧ exec (.xor xx pp kk) s₂ = .next s₃ ∧
        exec (.xor rd xx rc) s₃ = .next s₄ ∧
        g.Issuing lnGate ∧ s₄.Issuing lnFour ∧ lnGate.labels[rd] = some v ∧ lnFour.labels[rd] = some v

/-! ## Lanes -/

/-- 10_state.md R12, 60_exceptions.md R150: a command presented to lane p changes no other lane. -/
def Obligations.OtherLanesUntouched : Prop :=
  ∀ (s t : State) (p : Nat) (cw : CmdWord) (din : Label) (rest : List HostEvent),
    s.pending = .command p cw din :: rest → step s = .next t →
      t.lanes.length = s.lanes.length ∧ ∀ q : Nat, q ≠ p → t.lanes[q]? = s.lanes[q]?

/-- 10_state.md R12: what a command does to the context and to its lane depends on the context, the lane's own state
and DIN alone: on nothing of the other lanes and not on where the lane stands. -/
def Obligations.CommandSeesOnlyItsLane : Prop :=
  ∀ (i : Instr) (s s' t : State) (ln : Lane),
    s.Issuing ln → s'.Issuing ln → s.ctx = s'.ctx → s.din = s'.din → exec i s = .next t →
      ∃ t' : State, exec i s' = .next t' ∧ t'.ctx = t.ctx ∧ t'.lanes[s'.lane]? = t.lanes[s.lane]?

/-- 20_memory.md R41: two commands of different lanes commute, unless one of them writes the shared context and the
other reads or writes it. The states compared are the block's own (context and lanes, with the responses on the ports)
and what is still pending; the host-side fields `lane` and `din` (log entry 2) keep those of the last command. -/
def Obligations.CommandsOfDifferentLanesCommute : Prop :=
  ∀ (i j : Instr) (s : State) (p q : Nat) (din din' : Label),
    p ≠ q → p < s.lanes.length → q < s.lanes.length →
    ¬(i.writesContext ∧ j.touchesContext) → ¬(j.writesContext ∧ i.touchesContext) →
      ∃ a b c d : State,
        exec i (s.onPort p din) = .next a ∧ exec j (a.onPort q din') = .next b ∧
        exec j (s.onPort q din') = .next c ∧ exec i (c.onPort p din) = .next d ∧
        b.ctx = d.ctx ∧ b.lanes = d.lanes ∧ b.pending = d.pending

/-- 20_memory.md R44: when two lanes race to issue `MKC`, the first succeeds and the second is locked out; the context
is the winner's. -/
def Obligations.OneMkcWinsTheRace : Prop :=
  ∀ (s : State) (p q : Nat) (key key' : Label),
    s.ctx = none → p ≠ q → p < s.lanes.length → q < s.lanes.length →
      ∃ (a b : State) (lnP lnQ : Lane),
        exec .mkc (s.onPort p key) = .next a ∧ exec .mkc (a.onPort q key') = .next b ∧
        b.ctx = some (keyExpand key) ∧ b.lanes[p]? = some lnP ∧ lnP.response = some ⟨.ok, 0⟩ ∧
        b.lanes[q]? = some lnQ ∧ lnQ.response = some ⟨.err .errCtxlocked, 0⟩

/-! ## Whole-machine rules -/

/-- 20_memory.md R37: a command that completes writes, of the block, at most its destination label register, FIRSTERR
(of a fault) and, for `MKC` and `CTXCLR` alone, the shared context. -/
def Obligations.CommandWritesOnlyItsDestination : Prop :=
  ∀ (i : Instr) (s t : State), exec i s = .next t →
    ∃ (ln ln' : Lane) (r : Response), s.Issuing ln ∧ t.lanes = s.lanes.set s.lane ln' ∧ ln'.response = some r ∧
      ln'.laneId = ln.laneId ∧ (∀ x : LReg, i.dest ≠ some x → ln'.labels[x] = ln.labels[x]) ∧
      (r.st = .ok → ln'.firstErr = ln.firstErr) ∧ (¬i.writesContext → t.ctx = s.ctx) ∧
      t.lane = s.lane ∧ t.din = s.din ∧ t.pending = s.pending

/-- 30_encoding.md R59: DOUT is the label of `STL`, the round key of `RDRK`, the status word of `RDST`, and 0 for the
nine others and for every fault. -/
def Obligations.DoutOnlyFromReads : Prop :=
  ∀ (i : Instr) (s t : State) (ln ln' : Lane) (r : Response),
    exec i s = .next t → s.Issuing ln → t.lanes[s.lane]? = some ln' → ln'.response = some r →
      (r.st ≠ .ok → r.dout = 0) ∧
      (r.st = .ok →
        (∀ ra : LReg, i = .stl ra → ln.labels[ra] = some r.dout) ∧
        (∀ idx : RkIdx, i = .rdrk idx → ∃ (rk : Schedule) (_ : idx.val < 15), s.ctx = some rk ∧ rk[idx.val] = r.dout) ∧
        (i = .rdst → r.dout = statusWord s ln) ∧
        ((∀ ra : LReg, i ≠ .stl ra) → (∀ idx : RkIdx, i ≠ .rdrk idx) → i ≠ .rdst → r.dout = 0))

/-- 30_encoding.md R60: `MKC` and `LDL` take every value of DIN; no other command's outcome depends on DIN. -/
def Obligations.DinReadByMkcAndLdlOnly : Prop :=
  (∀ (s : State) (ln : Lane) (din : Label), s.Issuing ln →
    (s.ctx = none → ∃ (t : State) (rk : Schedule),
      exec .mkc { s with din := din } = .next t ∧ t.ctx = some rk ∧ rk[0] = din) ∧
    ∀ rd : LReg, exec (.ldl rd) { s with din := din } = .next (State.loaded { s with din := din } ln rd din)) ∧
  ∀ (i : Instr) (s t : State) (din : Label), i ≠ .mkc → (∀ rd : LReg, i ≠ .ldl rd) → exec i s = .next t →
    exec i { s with din := din } = .next { t with din := din }

/-- 10_state.md R21: while the context exists no step but `CTXCLR` and RESET changes any bit of RK. -/
def Obligations.ContextIsImmutable : Prop :=
  ∀ (s t : State) (rk : Schedule),
    s.ctx = some rk → step s = .next t → (∀ rest : List HostEvent, s.pending ≠ .reset :: rest) →
    (∀ (p : Nat) (cw : CmdWord) (din : Label) (rest : List HostEvent), s.pending = .command p cw din :: rest →
      decode cw ≠ .ok .ctxclr) →
      t.ctx = some rk

/-- 10_state.md R13: nothing but RESET clears an LV bit. -/
def Obligations.ValidBitsClearedByResetOnly : Prop :=
  ∀ (s t : State) (p : Nat) (ln : Lane) (r : LReg),
    step s = .next t → (∀ rest : List HostEvent, s.pending ≠ .reset :: rest) →
    s.lanes[p]? = some ln → ln.lv r = true →
      ∃ ln' : Lane, t.lanes[p]? = some ln' ∧ ln'.lv r = true

/-- 70_reset_and_hazards.md R161: no later state depends on the labels a block held before RESET, nor on the round keys
it held before `CTXCLR`: the states after are the same. That after RESET the port responses (part of `lanes`) and the
pending events agree too is the model's choice (log entries 3 and 12), not R161's. After `CTXCLR` the round keys are the absent
value R161 has a model hold (log entry 6). -/
def Obligations.DestroyedContentsLeaveNoTrace : Prop :=
  (∀ (s s' t t' : State) (rest : List HostEvent),
      s.pending = .reset :: rest → s'.pending = .reset :: rest →
      s.lanes.map Lane.laneId = s'.lanes.map Lane.laneId → step s = .next t → step s' = .next t' →
        t.ctx = t'.ctx ∧ t.lanes = t'.lanes ∧ t.pending = t'.pending) ∧
    ∀ (s : State) (rk rk' : Schedule),
      exec .ctxclr { s with ctx := some rk } = exec .ctxclr { s with ctx := some rk' }

/-- 70_reset_and_hazards.md R170, 40_cipher_context.md R88, 41_label_alu.md R112: whether and how a command faults is a
function of its opcode, of CTXV and of LV: it is the same for all values of DIN, of the labels, of the round keys and
of the tweak. (Latency is not in the model, log entry 9.) -/
def Obligations.StatusIsDataIndependent : Prop :=
  ∀ (i j : Instr) (s s' : State) (ln ln' : Lane),
    i.eraseTweak = j.eraseTweak → s.Issuing ln → s'.Issuing ln' → s.ctxv = s'.ctxv →
    (∀ r : LReg, ln.lv r = ln'.lv r) →
      ∃ (t t' : State) (m m' : Lane) (st : Status) (d d' : Label),
        exec i s = .next t ∧ exec j s' = .next t' ∧
        t.lanes[s.lane]? = some m ∧ t'.lanes[s'.lane]? = some m' ∧
        m.response = some ⟨st, d⟩ ∧ m'.response = some ⟨st, d'⟩

/-- 43_system.md R133, 60_exceptions.md R148: no step suspends, blocks or stops, and every presented command is answered
on its lane, so long as the host presents commands on ports the block has. -/
def Obligations.EveryCommandIsAnswered : Prop :=
  ∀ s : State,
    (∀ (p : Nat) (cw : CmdWord) (din : Label) (rest : List HostEvent), s.pending = .command p cw din :: rest →
      p < s.lanes.length) →
      ∃ t : State, step s = .next t ∧ t.lanes.length = s.lanes.length ∧
        ∀ (p : Nat) (cw : CmdWord) (din : Label) (rest : List HostEvent), s.pending = .command p cw din :: rest →
          ∃ (ln' : Lane) (r : Response), t.lanes[p]? = some ln' ∧ ln'.response = some r

/-- The state after RESET of every block the parameter `NLANES` allows meets the invariant. Its clause `faultLatched`
holds there because the port response is absent at reset, the model's choice (log entry 3). -/
def Obligations.ResetMeetsInvariant : Prop :=
  (∀ n : Nat, 1 ≤ n → n ≤ 256 → (State.resetWith n).Inv) ∧ State.reset.Inv

/-- Every step keeps the invariant: the lanes are 1 to 256 and keep their numbers, FIRSTERR is 0..4, a faulted answer
drove 0 and is latched, and a context is the expansion of its first round key (10_state.md R11, R15 to R17). A RESET
step keeps the clause `faultLatched` only because in the model RESET makes the port response absent: the model's choice
(log entries 3 and 12), which no rule states. -/
def Obligations.StepKeepsInvariant : Prop :=
  ∀ s t : State, s.Inv → step s = .next t → t.Inv
end

