-- ==== Sys2Proof/Laws/Block.lean ====
section
/-! SUPPORT. Splitting a 128-bit value into bytes or columns and joining them again; `GF(2^8)` arithmetic over XOR. -/

namespace Sys2Proof.Machine

@[simp] theorem getElem_buildBlock (f : Fin 16 → Byte) (i : Nat) (h : i < 16) : (buildBlock f)[i] = f ⟨i, h⟩ := by
  interval_cases i <;> rfl

@[simp] theorem labelOfBlock_blockOfLabel (x : Label) : labelOfBlock (blockOfLabel x) = x := by
  unfold labelOfBlock blockOfLabel
  simp only [getElem_buildBlock, blockByte]
  simp (disch := omega) only [-Nat.reduceAdd, -Nat.reduceSub,
    BitVec.extractLsb'_append_extractLsb'_eq_extractLsb']
  exact BitVec.extractLsb'_eq_self

@[simp] theorem blockByte_labelOfBlock (b : Block) (i : Nat) (h : i < 16) : blockByte (labelOfBlock b) i = b[i] := by
  unfold blockByte labelOfBlock
  interval_cases i
  all_goals
    simp (disch := omega) only [-Nat.reduceAdd, -Nat.reduceSub, BitVec.extractLsb'_append_eq_of_add_le,
      BitVec.extractLsb'_append_eq_of_le]
    simp

@[simp] theorem blockOfLabel_labelOfBlock (b : Block) : blockOfLabel (labelOfBlock b) = b := by
  ext i h
  simp [blockOfLabel, blockByte_labelOfBlock]

/-- Two 128-bit values with the same sixteen bytes are equal. -/
theorem Label.eq_of_bytes {x y : Label} (h : ∀ i < 16, blockByte x i = blockByte y i) : x = y := by
  have hb : blockOfLabel x = blockOfLabel y := by
    ext i hi
    simp [blockOfLabel, h i hi]
  rw [← labelOfBlock_blockOfLabel x, hb, labelOfBlock_blockOfLabel]

theorem word32_append (a b c d : Word32) :
    word32 (a ++ b ++ c ++ d) 0 = a ∧ word32 (a ++ b ++ c ++ d) 1 = b ∧
      word32 (a ++ b ++ c ++ d) 2 = c ∧ word32 (a ++ b ++ c ++ d) 3 = d := by
  unfold word32
  simp (disch := omega) only [-Nat.reduceAdd, -Nat.reduceSub, BitVec.extractLsb'_append_eq_of_add_le,
    BitVec.extractLsb'_append_eq_of_le]
  simp

theorem blockByte_xor (x y : Label) (i : Nat) : blockByte (x ^^^ y) i = blockByte x i ^^^ blockByte y i := by
  simp [blockByte, BitVec.extractLsb'_xor]

theorem Byte.xor_left_comm (a b c : Byte) : a ^^^ (b ^^^ c) = b ^^^ (a ^^^ c) := by
  rw [← BitVec.xor_assoc, ← BitVec.xor_assoc, BitVec.xor_comm a b]

theorem xtime_xor (a b : Byte) : xtime (a ^^^ b) = xtime a ^^^ xtime b := by
  unfold xtime
  rw [BitVec.msb_xor, BitVec.shiftLeft_xor_distrib]
  cases a.msb <;> cases b.msb <;> simp [BitVec.xor_assoc, BitVec.xor_comm, Byte.xor_left_comm]

end Sys2Proof.Machine
end

