-- ==== Sys2Proof/Laws/Fields.lean ====
section
/-! SUPPORT. Packing and extracting the fields of a command word are inverse to each other. -/

namespace Sys2Proof

@[simp] theorem fieldsOf_packFields (f : Fields) : fieldsOf (packFields f) = f := by
  cases f
  unfold packFields fieldsOf
  simp (disch := omega) only [-Nat.reduceAdd, -Nat.reduceSub, BitVec.extractLsb'_append_eq_of_add_le,
    BitVec.extractLsb'_append_eq_of_le]
  simp

@[simp] theorem packFields_fieldsOf (cw : CmdWord) : packFields (fieldsOf cw) = cw := by
  unfold packFields fieldsOf
  simp (disch := omega) only [-Nat.reduceAdd, -Nat.reduceSub,
    BitVec.extractLsb'_append_extractLsb'_eq_extractLsb']
  exact BitVec.extractLsb'_eq_self

@[simp] theorem fieldsOf_encode (i : Instr) : fieldsOf (encode i) = instrFields i :=
  fieldsOf_packFields _

/-- Two words with the same fields are the same word. -/
theorem fieldsOf_inj {v w : CmdWord} (h : fieldsOf v = fieldsOf w) : v = w := by
  rw [← packFields_fieldsOf v, h, packFields_fieldsOf]

end Sys2Proof
end

