-- ==== Sys2Proof/Laws/State.lean ====
section
/-! SUPPORT. One lemma per field per update of a lane and of the state, so that no proof unfolds a record update. -/

namespace Sys2Proof.Machine

@[simp] theorem Lane.writeLabel_laneId (ln : Lane) (rd : LReg) (v : Label) : (ln.writeLabel rd v).laneId = ln.laneId := rfl
@[simp] theorem Lane.writeLabel_firstErr (ln : Lane) (rd : LReg) (v : Label) : (ln.writeLabel rd v).firstErr = ln.firstErr := rfl
@[simp] theorem Lane.writeLabel_response (ln : Lane) (rd : LReg) (v : Label) : (ln.writeLabel rd v).response = ln.response := rfl
@[simp] theorem Lane.writeLabel_labels (ln : Lane) (rd : LReg) (v : Label) :
    (ln.writeLabel rd v).labels = ln.labels.set rd (some v) := rfl

@[simp] theorem Lane.respond_laneId (ln : Lane) (st : Status) (d : Label) : (ln.respond st d).laneId = ln.laneId := rfl
@[simp] theorem Lane.respond_labels (ln : Lane) (st : Status) (d : Label) : (ln.respond st d).labels = ln.labels := rfl
@[simp] theorem Lane.respond_firstErr (ln : Lane) (st : Status) (d : Label) : (ln.respond st d).firstErr = ln.firstErr := rfl
@[simp] theorem Lane.respond_response (ln : Lane) (st : Status) (d : Label) : (ln.respond st d).response = some ⟨st, d⟩ := rfl

@[simp] theorem Lane.takeFault_laneId (ln : Lane) (c : ErrCode) : (ln.takeFault c).laneId = ln.laneId := rfl
@[simp] theorem Lane.takeFault_labels (ln : Lane) (c : ErrCode) : (ln.takeFault c).labels = ln.labels := rfl
@[simp] theorem Lane.takeFault_firstErr (ln : Lane) (c : ErrCode) :
    (ln.takeFault c).firstErr = latchFirstErr ln.firstErr c := rfl
@[simp] theorem Lane.takeFault_response (ln : Lane) (c : ErrCode) : (ln.takeFault c).response = some ⟨.err c, 0⟩ := rfl

@[simp] theorem Lane.reset_laneId (ln : Lane) : ln.reset.laneId = ln.laneId := rfl
@[simp] theorem Lane.reset_labels (ln : Lane) : ln.reset.labels = Vector.replicate 8 none := rfl
@[simp] theorem Lane.reset_firstErr (ln : Lane) : ln.reset.firstErr = 0 := rfl
@[simp] theorem Lane.reset_response (ln : Lane) : ln.reset.response = none := rfl

@[simp] theorem State.putLane_ctx (s : State) (ln : Lane) : (s.putLane ln).ctx = s.ctx := rfl
@[simp] theorem State.putLane_lanes (s : State) (ln : Lane) : (s.putLane ln).lanes = s.lanes.set s.lane ln := rfl
@[simp] theorem State.putLane_lane (s : State) (ln : Lane) : (s.putLane ln).lane = s.lane := rfl
@[simp] theorem State.putLane_din (s : State) (ln : Lane) : (s.putLane ln).din = s.din := rfl
@[simp] theorem State.putLane_pending (s : State) (ln : Lane) : (s.putLane ln).pending = s.pending := rfl

@[simp] theorem State.applyReset_ctx (s : State) : s.applyReset.ctx = none := rfl
@[simp] theorem State.applyReset_lanes (s : State) : s.applyReset.lanes = s.lanes.map Lane.reset := rfl
@[simp] theorem State.applyReset_lane (s : State) : s.applyReset.lane = s.lane := rfl
@[simp] theorem State.applyReset_din (s : State) : s.applyReset.din = s.din := rfl
@[simp] theorem State.applyReset_pending (s : State) : s.applyReset.pending = s.pending := rfl

@[simp] theorem State.finish_setContext (s : State) (ln : Lane) (c : Option Schedule) :
    s.finish ln (.setContext c) = State.putLane { s with ctx := c } (ln.respond .ok 0) := rfl
@[simp] theorem State.finish_setLabel (s : State) (ln : Lane) (rd : LReg) (v : Label) :
    s.finish ln (.setLabel rd v) = s.putLane ((ln.writeLabel rd v).respond .ok 0) := rfl
@[simp] theorem State.finish_drive (s : State) (ln : Lane) (d : Label) :
    s.finish ln (.drive d) = s.putLane (ln.respond .ok d) := rfl

end Sys2Proof.Machine
end

