-- ==== Sys2Proof/Laws/Ops.lean ====
section
/-! SUPPORT. What each shared operation can do, said once: reading a register or the context, running a command on its
lane, and one step. -/

namespace Sys2Proof.Machine

theorem Lane.readLabel_of_valid {ln : Lane} {r : LReg} {v : Label} (h : ln.labels[r] = some v) :
    ln.readLabel r = .ok v := by
  simp [Lane.readLabel, h]

theorem Lane.readLabel_of_invalid {ln : Lane} {r : LReg} (h : ln.labels[r] = none) :
    ln.readLabel r = .error .errUninit := by
  simp [Lane.readLabel, h]

/-- A source register reads as its value or faults with `ERR_UNINIT`, as its LV bit says (R143). -/
theorem Lane.readLabel_cases (ln : Lane) (r : LReg) :
    (∃ v, ln.labels[r] = some v ∧ ln.readLabel r = .ok v) ∨
      (ln.labels[r] = none ∧ ln.readLabel r = .error .errUninit) := by
  cases h : ln.labels[r] with
  | none => exact .inr ⟨rfl, Lane.readLabel_of_invalid h⟩
  | some v => exact .inl ⟨v, rfl, Lane.readLabel_of_valid h⟩

theorem State.readContext_of_some {s : State} {rk : Schedule} (h : s.ctx = some rk) : s.readContext = .ok rk := by
  simp [State.readContext, h]

theorem State.readContext_of_none {s : State} (h : s.ctx = none) : s.readContext = .error .errNoctx := by
  simp [State.readContext, h]

/-- The context reads as its round keys or faults with `ERR_NOCTX`, as CTXV says (R141). -/
theorem State.readContext_cases (s : State) :
    (∃ rk, s.ctx = some rk ∧ s.readContext = .ok rk) ∨ (s.ctx = none ∧ s.readContext = .error .errNoctx) := by
  cases h : s.ctx with
  | none => exact .inr ⟨rfl, State.readContext_of_none h⟩
  | some rk => exact .inl ⟨rk, rfl, State.readContext_of_some h⟩

theorem perform_error {s : State} {ln : Lane} {body : Lane → Except ErrCode Effect} {c : ErrCode}
    (hl : s.lanes[s.lane]? = some ln) (hb : body ln = .error c) :
    perform s body = .next (s.putLane (ln.takeFault c)) := by
  simp [perform, hl, hb]

theorem perform_ok {s : State} {ln : Lane} {body : Lane → Except ErrCode Effect} {e : Effect}
    (hl : s.lanes[s.lane]? = some ln) (hb : body ln = .ok e) : perform s body = .next (s.finish ln e) := by
  simp [perform, hl, hb]

theorem perform_noSuchLane {s : State} {body : Lane → Except ErrCode Effect} (hl : s.lanes[s.lane]? = none) :
    perform s body = .fault .noSuchLane := by
  simp [perform, hl]

/-- Everything one command can do: take a fault, or have its effect, on a lane that exists. -/
theorem perform_next {s t : State} {body : Lane → Except ErrCode Effect} :
    perform s body = .next t ↔ ∃ ln, s.lanes[s.lane]? = some ln ∧
      ((∃ c, body ln = .error c ∧ t = s.putLane (ln.takeFault c)) ∨
        ∃ e, body ln = .ok e ∧ t = s.finish ln e) := by
  unfold perform
  cases s.lanes[s.lane]? with
  | none => simp
  | some ln => cases h : body ln <;> simp [h, eq_comm]

/-- The effects a command may have when it ends with `OK` (20_memory.md R37). -/
def EffectOf (i : Instr) (s : State) (e : Effect) : Prop :=
  match i with
  | .mkc => s.ctx = none ∧ e = .setContext (some (keyExpand s.din))
  | .ctxclr => e = .setContext none
  | .rdrk _ => ∃ v, e = .drive v
  | .stl _ => ∃ v, e = .drive v
  | .rdst => ∃ v, e = .drive v
  | .enc rd _ => ∃ v, e = .setLabel rd v
  | .ldl rd => ∃ v, e = .setLabel rd v
  | .xor rd _ _ => ∃ v, e = .setLabel rd v
  | .dbl rd _ => ∃ v, e = .setLabel rd v
  | .quad rd _ => ∃ v, e = .setLabel rd v
  | .ctwk rd _ _ _ => ∃ v, e = .setLabel rd v
  | .gate rd _ _ _ _ => ∃ v, e = .setLabel rd v

theorem except_bind_eq_ok {ε α β : Type} {x : Except ε α} {f : α → Except ε β} {b : β} :
    (x >>= f) = .ok b ↔ ∃ a, x = .ok a ∧ f a = .ok b := by
  cases x with
  | error e => exact Iff.intro (fun h => nomatch h) (fun ⟨_, h, _⟩ => nomatch h)
  | ok a => exact Iff.intro (fun h => ⟨a, rfl, h⟩) (fun ⟨_, h, h'⟩ => by cases h; exact h')

theorem except_pure_eq_ok {ε α : Type} {a b : α} : (pure a : Except ε α) = .ok b ↔ a = b :=
  Iff.intro (fun h => Except.ok.inj h) (fun h => congrArg Except.ok h)

/-- Everything `exec` can do: the issuing lane takes a fault, or the command's own effect happens. -/
theorem exec_next {i : Instr} {s t : State} (h : exec i s = .next t) :
    ∃ ln, s.lanes[s.lane]? = some ln ∧
      ((∃ c, t = s.putLane (ln.takeFault c)) ∨ ∃ e, EffectOf i s e ∧ t = s.finish ln e) := by
  cases i <;>
    simp only [exec, execMkc, execCtxclr, execRdrk, execEnc, execLdl, execStl, execXor, execDbl, execQuad, execCtwk,
      execGate, execRdst] at h <;>
    obtain ⟨ln, hl, hc | ⟨e, he, ht⟩⟩ := perform_next.mp h <;>
    refine ⟨ln, hl, ?_⟩
  all_goals first
    | exact .inl (hc.imp fun _ hc => hc.2)
    | refine .inr ⟨e, ?_, ht⟩
  case mkc =>
    split at he <;> simp_all [EffectOf, eq_comm]
  case rdrk =>
    split at he
    · simp only [except_bind_eq_ok, except_pure_eq_ok] at he
      obtain ⟨_, _, rfl⟩ := he
      exact ⟨_, rfl⟩
    · cases he
  all_goals simp only [except_bind_eq_ok, except_pure_eq_ok, Except.ok.injEq] at he
  case ctxclr => exact he.symm
  case rdst => exact ⟨_, he.symm⟩
  case ldl => exact ⟨_, he.symm⟩
  case stl => obtain ⟨_, _, rfl⟩ := he; exact ⟨_, rfl⟩
  case enc => obtain ⟨_, _, _, _, rfl⟩ := he; exact ⟨_, rfl⟩
  case xor => obtain ⟨_, _, _, _, rfl⟩ := he; exact ⟨_, rfl⟩
  case dbl => obtain ⟨_, _, rfl⟩ := he; exact ⟨_, rfl⟩
  case quad => obtain ⟨_, _, rfl⟩ := he; exact ⟨_, rfl⟩
  case ctwk => obtain ⟨_, _, _, _, rfl⟩ := he; exact ⟨_, rfl⟩
  case gate => obtain ⟨_, _, _, _, _, _, _, _, rfl⟩ := he; exact ⟨_, rfl⟩

theorem step_reset_event {s : State} {rest : List HostEvent} (h : s.pending = .reset :: rest) :
    step s = .next (State.applyReset { s with pending := rest }) := by
  simp [step, State.fetch, h]

theorem step_illegal {s : State} {p : Nat} {cw : CmdWord} {din : Label} {rest : List HostEvent} {e : DecodeError}
    (h : s.pending = .command p cw din :: rest) (hd : decode cw = .error e) :
    step s = illegalWord { s with lane := p, din := din, pending := rest } := by
  simp [step, State.fetch, h, hd]

end Sys2Proof.Machine
end

