-- ==== Sys2Proof/Laws/PerInstr.lean ====
section
/-! SUPPORT. One fact about every command as syntax: its word carries its opcode, and every field outside its format
class is 0 (30_encoding.md R53, R56). -/

namespace Sys2Proof.Laws

/-- The encoded word has the command's opcode and nothing outside its class. -/
def EncodesInClass.Statement (i : Instr) : Prop :=
  (fieldsOf (encode i)).opcode = opcodeOf i ∧ (fieldsOf (encode i)).zero = 0 ∧
    (classOf i).unusedZero (fieldsOf (encode i)) = true

theorem EncodesInClass.mkc : EncodesInClass.Statement .mkc := by
  simp [EncodesInClass.Statement, instrFields, fieldsWith, classOf, FormatClass.unusedZero]

theorem EncodesInClass.ctxclr : EncodesInClass.Statement .ctxclr := by
  simp [EncodesInClass.Statement, instrFields, fieldsWith, classOf, FormatClass.unusedZero]

theorem EncodesInClass.rdrk (idx : RkIdx) : EncodesInClass.Statement (.rdrk idx) := by
  simp [EncodesInClass.Statement, instrFields, fieldsWith, classOf, FormatClass.unusedZero]

theorem EncodesInClass.enc (rd ra : LReg) : EncodesInClass.Statement (.enc rd ra) := by
  simp [EncodesInClass.Statement, instrFields, fieldsWith, classOf, FormatClass.unusedZero]

theorem EncodesInClass.ldl (rd : LReg) : EncodesInClass.Statement (.ldl rd) := by
  simp [EncodesInClass.Statement, instrFields, fieldsWith, classOf, FormatClass.unusedZero]

theorem EncodesInClass.stl (ra : LReg) : EncodesInClass.Statement (.stl ra) := by
  simp [EncodesInClass.Statement, instrFields, fieldsWith, classOf, FormatClass.unusedZero]

theorem EncodesInClass.xor (rd ra rb : LReg) : EncodesInClass.Statement (.xor rd ra rb) := by
  simp [EncodesInClass.Statement, instrFields, fieldsWith, classOf, FormatClass.unusedZero]

theorem EncodesInClass.dbl (rd ra : LReg) : EncodesInClass.Statement (.dbl rd ra) := by
  simp [EncodesInClass.Statement, instrFields, fieldsWith, classOf, FormatClass.unusedZero]

theorem EncodesInClass.quad (rd ra : LReg) : EncodesInClass.Statement (.quad rd ra) := by
  simp [EncodesInClass.Statement, instrFields, fieldsWith, classOf, FormatClass.unusedZero]

theorem EncodesInClass.ctwk (rd ra rb : LReg) (t : Tweak) : EncodesInClass.Statement (.ctwk rd ra rb t) := by
  simp [EncodesInClass.Statement, instrFields, fieldsWith, classOf, FormatClass.unusedZero]

theorem EncodesInClass.gate (rd ra rb rc : LReg) (t : Tweak) : EncodesInClass.Statement (.gate rd ra rb rc t) := by
  simp [EncodesInClass.Statement, instrFields, fieldsWith, classOf, FormatClass.unusedZero]

theorem EncodesInClass.rdst : EncodesInClass.Statement .rdst := by
  simp [EncodesInClass.Statement, instrFields, fieldsWith, classOf, FormatClass.unusedZero]

end Sys2Proof.Laws
end

