-- ==== Sys2Proof/Tests/Slice0.lean ====
section
/-! SUPPORT. Tests of one decode, one function or one step each, their expected results from 95_test_vectors.md (V-…,
K…, T…, P…) and 30_encoding.md section 7; and, for every statement with hypotheses, witnesses that meet them. -/

namespace Sys2Proof.Tests

open Sys2Proof.Machine

/-! ## States the tests start from -/

/-- The benchmark key (S2). -/
def benchKey : Label := 0x30313233343536373839414243444500

/-- A lane whose L0, L1, L2 hold the scenario's A, B, C (S3a) and whose other registers were never written. -/
def abcLane : Lane where
  laneId   := 0
  labels   := #v[some 0x00000000000000010000000000000000, some 0x00000000000000020000000000000000,
                 some 0x00000000000000030000000000000000, none, none, none, none, none]
  firstErr := 0
  response := none

/-- Two lanes, lane 0 with the scenario's labels, no context. -/
def noCtx : State where
  ctx     := none
  lanes   := [abcLane, Lane.fresh 1]
  lane    := 0
  din     := benchKey
  pending := []

/-- The same with a context. -/
def withCtx (rk : Schedule) : State := { noCtx with ctx := some rk }

/-- The same with the context of the benchmark key. -/
def bench : State := withCtx (keyExpand benchKey)

/-- The same with fifteen zero round keys: a context no `MKC` builds, cheap to evaluate. -/
def zeroCtx : State := withCtx (Vector.replicate 15 0)

/-- The same, L7 faulted on before with `ERR_UNINIT`. -/
def faultedBefore : State := { zeroCtx with lanes := [{ abcLane with firstErr := 4 }, Lane.fresh 1] }

/-- `s` with a command presented on lane `p`. -/
def present (s : State) (p : Nat) (cw : CmdWord) (din : Label := 0) : State :=
  { s with pending := [.command p cw din] }

/-- The state after one step, where there is one. -/
def after (s : State) : Option State :=
  match step s with
  | .next t => some t
  | .fault _ => none
  | .refused _ => none

/-- What lane `p` answers after one step. -/
def answer (s : State) (p : Nat := 0) : Option Response :=
  (after s).bind fun t => (t.lanes[p]?).bind fun ln => ln.response

/-- `L[r]` of lane 0 after one step. -/
def label (s : State) (r : LReg) : Option Label :=
  (after s).bind fun t => (t.lanes[0]?).bind fun ln => ln.labels[r]

/-! ## WellFormed -/

theorem test_wellFormed_refuses_rdrk_15 : (Instr.rdrk 15).wellFormed = false := by decide
theorem test_wellFormed_accepts_rdrk_14 : (Instr.rdrk 14).wellFormed = true := by decide

/-! ## Decoding: words written out from the encodings (30_encoding.md section 7), and illegal words (V-DEC) -/

theorem test_decode_mkc : decode 0x0000000001000000 = .ok .mkc := by decide
theorem test_decode_ctxclr : decode 0x0000000002000000 = .ok .ctxclr := by decide
theorem test_decode_rdrk : decode 0x0000000003000E00 = .ok (.rdrk 14) := by decide
theorem test_decode_enc : decode 0x0000000004B00000 = .ok (.enc 5 4) := by decide
theorem test_decode_ldl : decode 0x0000000010200000 = .ok (.ldl 1) := by decide
theorem test_decode_stl : decode 0x0000000011180000 = .ok (.stl 6) := by decide
theorem test_decode_xor : decode 0x00000000126C8000 = .ok (.xor 3 3 1) := by decide
theorem test_decode_dbl : decode 0x0000000013440000 = .ok (.dbl 2 1) := by decide
theorem test_decode_quad : decode 0x0000000014A40000 = .ok (.quad 5 1) := by decide
theorem test_decode_ctwk : decode 0x0000000715808000 = .ok (.ctwk 4 0 1 7) := by decide
theorem test_decode_gate : decode 0x0000002A20C0E000 = .ok (.gate 6 0 1 6 0x2A) := by decide
theorem test_decode_gate_max : decode 0xFFFFFFFF20FFF000 = .ok (.gate 7 7 7 7 0xFFFFFFFF) := by decide
theorem test_decode_rdst : decode 0x0000000030000000 = .ok .rdst := by decide

/-- V-DEC-1 to V-DEC-18, each with the reason its row gives. -/
theorem test_decode_illegal :
    [0x0000000000000000#64, 0xFFFFFFFFFFFFFFFF, 0x0000000005000000, 0x0000000016000000, 0x0000000021000000,
      0x0000000013440001, 0x0000000013448000, 0x0000000010240000, 0x0000000003000F00, 0x0000000101000000,
      0x0000000712298000, 0x000000071580A000, 0x000000072060A100, 0x0000000030200000, 0x0000000011D80000,
      0x0000000004B07000, 0x0000000002000100, 0x0000000003200300].map (fun cw => decode cw) =
    [.error .reservedOpcode, .error .reservedOpcode, .error .reservedOpcode, .error .reservedOpcode,
      .error .reservedOpcode, .error .nonzeroZeroField, .error .nonzeroUnusedField, .error .nonzeroUnusedField,
      .error .noSuchRoundKey, .error .nonzeroUnusedField, .error .nonzeroUnusedField, .error .nonzeroUnusedField,
      .error .nonzeroUnusedField, .error .nonzeroUnusedField, .error .nonzeroUnusedField, .error .nonzeroUnusedField,
      .error .nonzeroUnusedField, .error .nonzeroUnusedField] := by decide

theorem test_decodeTableWord : decodeTableWord 64 0x000000072060A000 = some (.gate 3 0 1 2 7) := by decide

/-! ## The functions -/

/-- V-ENC-13. -/
theorem test_sbox : [0x00#8, 0x01, 0x53, 0xFF, 0x52].map sbox = [0x63, 0x7C, 0xED, 0x16, 0x00] := by decide

/-- R78: the table is the affine map of the inverse. -/
theorem test_sbox_algebraic : [0x00#8, 0x01, 0x53, 0xCA].map (fun a => sboxAffine (ginv a)) = [0x00#8, 0x01, 0x53, 0xCA].map sbox := by
  decide +kernel

/-- V-ENC-13: xtime(57) = AE, xtime(AE) = 47, 57 · 13 = FE. -/
theorem test_gf : xtime 0x57 = 0xAE ∧ xtime 0xAE = 0x47 ∧ gmul 0x57 0x13 = 0xFE := by decide

/-- S1: every round constant is xtime of the one before. -/
theorem test_rcon : rcon 1 = 0x01 ∧ ∀ i ∈ List.range 13, rcon (i + 2) = xtime (rcon (i + 1)) := by decide

/-- V-ENC-13. -/
theorem test_shiftRows : labelOfBlock (shiftRows (blockOfLabel 0x000102030405060708090A0B0C0D0E0F)) =
    0x00050A0F04090E03080D02070C01060B := by decide

/-- V-ENC-13. -/
theorem test_mixColumns : labelOfBlock (mixColumns (blockOfLabel 0xDB13534501010101C6C6C6C6D4D4D4D5)) =
    0x8E4DA1BC01010101C6C6C6C6D5D5D7D6 := by decide

/-- V-KS-6. -/
theorem test_keyStep : keyStep 0x2B7E151628AED2A6ABF7158809CF4F3C 0x01 = 0xA0FAFE1788542CB123A339392A6C7605 := by decide

/-- T1, step 1. -/
theorem test_fullRound : fullRound 0x193DE3BEA0F4E22B9AC68D2AE9F84808 0xA0FAFE1788542CB123A339392A6C7605 =
    0xA49C7FF2689F352B6B5BEA43026A5049 := by decide

/-- T1, step 14. -/
theorem test_finalRound : finalRound 0xE0B59141DF2D2659968E9047DAD91EFD 0xB86D65C7D6953F15ACF9C8DC1B596A0F =
    0x59B50593488C4D963CCC49174C8C9DAF := by decide

/-- V-KS-2, the last row. -/
theorem test_keyExpand : (keyExpand 0x000102030405060708090A0B0C0D0E0F)[14] = 0xED025F484F0523D2DD23E539AC89FF66 := by
  decide +kernel

/-- V-ENC-1. -/
theorem test_encrypt : encrypt (keyExpand 0x2B7E151628AED2A6ABF7158809CF4F3C) 0x3243F6A8885A308D313198A2E0370734 =
    0x59B50593488C4D963CCC49174C8C9DAF := by decide +kernel

/-! ## One step of each command -/

/-- R71's example: RK[0] and RK[14] after `MKC`. -/
theorem test_mkc : ((after (present noCtx 0 0x01000000 benchKey)).bind State.ctx).map (fun rk => (rk[0], rk[14])) =
    some (0x30313233343536373839414243444500, 0x1A13F211CFC50F8FCD271408676A3AC4) := by decide +kernel

/-- V-FLT-9 and V-RDST: the second `MKC` is locked out. -/
theorem test_mkc_locked : answer (present zeroCtx 1 0x01000000) 1 = some ⟨.err .errCtxlocked, 0⟩ := by decide

/-- P3 lines 12 and 13. -/
theorem test_ctxclr : (after (present zeroCtx 1 0x02000000)).map State.ctxv = some false := by decide

/-- R73's example. -/
theorem test_rdrk : answer (present (withCtx (keyExpand 0x2B7E151628AED2A6ABF7158809CF4F3C)) 0 0x03000A00) =
    some ⟨.ok, 0xD014F9A8C9EE2589E13F0CC8B6630CA6⟩ := by decide +kernel

/-- V-FLT-2: `RDRK #15` after RESET reports `ERR_ILLEGAL`, not `ERR_NOCTX`. -/
theorem test_rdrk_15 : answer (present State.reset 0 0x03000F00) = some ⟨.err .errIllegal, 0⟩ := by decide

/-- V-FLT-3. -/
theorem test_enc_noctx : answer (present State.reset 0 0x04200000) = some ⟨.err .errNoctx, 0⟩ := by decide

/-- V-ENC-7, source and destination the same register. -/
theorem test_enc : label (present { bench with lanes := [{ abcLane with labels := abcLane.labels.set 4 (some 1) }] } 0 0x04900000) 4 =
    some 0xE1FCB53781E8BA62B797F88C7DF21BA5 := by decide +kernel

/-- R105's example, on lane 0. -/
theorem test_ldl : label (present State.reset 0 0x10200000 0x00000000000000020000000000000000) 1 =
    some 0x00000000000000020000000000000000 := by decide

/-- P1 line 6's shape: the label on DOUT. -/
theorem test_stl : answer (present noCtx 0 0x11080000) = some ⟨.ok, 0x00000000000000030000000000000000⟩ := by decide

/-- V-FLT-5. -/
theorem test_stl_uninit : answer (present State.reset 0 0x11000000) = some ⟨.err .errUninit, 0⟩ := by decide

/-- V-XOR-1 as a command. -/
theorem test_xor : label (present { noCtx with lanes := [{ abcLane with labels :=
    #v[some 0x0123456789ABCDEFFEDCBA9876543210, some 0x00FF00FF00FF00FF0F0F0F0F0F0F0F0F, none, none, none, none, none, none] }] }
      0 0x12408000) 2 = some 0x01DC45988954CD10F1D3B597795B3D1F := by decide

/-- V-FLT-6: an unwritten register is no way to make zero. -/
theorem test_xor_uninit : answer (present State.reset 0 0x12000000) = some ⟨.err .errUninit, 0⟩ := by decide

/-- V-DBL-5 and V-DBL-9. -/
theorem test_dbl : labelDbl 0x0000000000000000C000000000000000 = 0x00000000000000018000000000000000 ∧
    labelDbl 0x80000000000000000000000000000000 = 0 := by decide

/-- V-FLT-12: the destination L0 keeps its value. -/
theorem test_dbl_uninit : label (present noCtx 0 0x130C0000) 0 = some 0x00000000000000010000000000000000 := by decide

/-- V-QUAD-5 and V-QUAD-3. -/
theorem test_quad : labelQuad 0x0000000000000000C000000000000000 = 0x00000000000000030000000000000000 ∧
    labelQuad 0x0123456789ABCDEFFEDCBA9876543210 = 0x048D159E26AF37BFFB72EA61D950C840 := by decide

/-- V-CTWK-5 and V-CTWK-11. -/
theorem test_combineTweak : combineTweak 0x0123456789ABCDEFFEDCBA9876543210 0x0F1E2D3C4B5A69788796A5B4C3D2E1F0 0xDEADBEEF =
    0x3E3E3E3E3E3E3E3DE3E3E3E33D4E5D0F ∧ combineTweak 0 0 0x80000000 = 0x80000000 := by decide

/-- R110's example. -/
theorem test_ctwk : label (present noCtx 0 0x0000000715808000) 4 = some 0x000000000000000A0000000000000007 := by decide

/-- V-GATE-1. -/
theorem test_gate : label (present bench 0 0x000000072060A000) 3 = some 0x15BF16B377E4708D9B792DA783D12457 := by
  decide +kernel

/-- V-FLT-1: the context is checked before the sources. -/
theorem test_gate_noctx : answer (present State.reset 0 0x000000072060A000) = some ⟨.err .errNoctx, 0⟩ := by decide

/-- V-RDST-3's fields on two lanes: LV = 0x07 on lane 0; V-RDST-7 on lane 1. -/
theorem test_rdst : answer (present zeroCtx 0 0x30000000) = some ⟨.ok, 0x0701⟩ ∧
    answer (present zeroCtx 1 0x30000000) 1 = some ⟨.ok, 0x00010001⟩ := by decide

/-- V-RDST-6: lane 255 after RESET and one illegal word. -/
theorem test_rdst_255 : statusWord noCtx { Lane.fresh 255 with firstErr := 1 } = 0x00FF0010 := by decide

/-- V-RDST-4: after `STL L7` faulted, FIRSTERR = 4. -/
theorem test_fault_latches : ((after (present zeroCtx 0 0x111C0000)).bind fun t => (t.lanes[0]?).map fun ln => ln.firstErr) =
    some 4 := by decide

/-- RESET (R160): nothing is left but LANEID. -/
theorem test_reset_event : after { faultedBefore with pending := [.reset] } =
    some { State.resetWith 2 with din := benchKey } := by decide

/-- P5 line 1 and R150: lane 1 faults, lane 0 is as before. -/
theorem test_other_lane : ((after (present noCtx 1 0x000000072060A000)).bind fun t => t.lanes[0]?) = some abcLane := by decide

/-- R62, R63: the worked encodings as they are written. -/
theorem test_assembly : assembly (.gate 3 0 1 2 7) = "GATE L3, L0, L1, L2, #7" ∧ assembly (.rdrk 14) = "RDRK #14" ∧
    assembly .rdst = "RDST" := by decide

/-- S3a, R31: A = (1,0). -/
theorem test_pair : labelOfPair 1 0 = 0x00000000000000010000000000000000 := by decide

/-- R63, R144: LDZ on a fresh lane; ST 5 is no status. -/
theorem test_ldz : label { State.reset with pending := [ldz 0 5] } 5 = some 0 ∧ Status.ofBits 5 = none := by decide

/-- The word the host places is the one that runs first after reset. -/
theorem test_withFetchWord : answer (State.reset.withFetchWord 64 0x30000000) = some ⟨.ok, 0⟩ := by decide

/-! ## Witnesses: states and operands that meet the hypotheses of the statements, clause by clause -/

/-- The reserved opcode 0x40 presented on lane 1 (P3 line 11). -/
def illegal : State := present zeroCtx 1 0x0000000040000000

theorem present_noReset (s : State) (p : Nat) (cw : CmdWord) (din : Label) (rest : List HostEvent) :
    (present s p cw din).pending ≠ .reset :: rest := by
  simp [present]

theorem witness_DecodeOfEncode : (Instr.rdrk 14).wellFormed = true ∧ (Instr.gate 7 0 7 0 0xFFFFFFFF).wellFormed = true := by
  decide
theorem witness_EncodeOfDecode : decode 0x0000000003000E00 = .ok (.rdrk 14) := by decide
theorem witness_WordSpellsTableRow : ∃ row ∈ opcodeTable, row.spells 0x0000000003000E00 = true := by decide
theorem witness_WordSpellsTableRow_boundary : ∀ row ∈ opcodeTable, row.spells 0x0000000003000F00 = false := by decide
theorem witness_StepRunsDecodedCommand :
    (present zeroCtx 1 0x0000000010E00000 5).pending = .command 1 0x0000000010E00000 5 :: [] ∧
      decode 0x0000000010E00000 = .ok (.ldl 7) := ⟨rfl, by decide⟩
theorem witness_StatusCodes : 5 ≤ (5#4).toNat ∧ 5 ≤ (15#4).toNat := by decide
theorem witness_IdleStepChangesNothing : State.reset.pending = [] := rfl
theorem witness_IllegalWordFaults : illegal.pending = .command 1 0x0000000040000000 0 :: [] ∧
    illegal.lanes[1]? = some (Lane.fresh 1) ∧ ∀ row ∈ opcodeTable, row.spells 0x0000000040000000 = false := by decide
theorem witness_ReservedOpcodeRejected : (0xFFFFFFFFFFFFFFFF : CmdWord).extractLsb' 24 8 ∉
    [0x01#8, 0x02#8, 0x03#8, 0x04#8, 0x10#8, 0x11#8, 0x12#8, 0x13#8, 0x14#8, 0x15#8, 0x20#8, 0x30#8] := by decide
theorem witness_ResetEventClearsBlock :
    { faultedBefore with pending := [HostEvent.reset, .reset] }.pending = .reset :: [.reset] ∧
      faultedBefore.lanes[1]? = some (Lane.fresh 1) := ⟨rfl, rfl⟩
theorem witness_ResetStateOfEveryLaneCount : 1 ≤ 1 ∧ 1 ≤ 256 ∧ 256 ≤ 256 ∧ 255 < 256 ∧ 0 < 1 := by decide
theorem witness_MissingLaneStops : { noCtx with lane := 2 }.lanes.length ≤ 2 := by decide

theorem witness_FaultPriority_illegal : noCtx.Issuing abcLane ∧ (Instr.rdrk 15).faultOf noCtx abcLane = some .errIllegal := by
  decide
theorem witness_FaultPriority_noctx : (Instr.gate 3 7 1 2 7).faultOf noCtx abcLane = some .errNoctx := by decide
theorem witness_FaultPriority_ctxlocked : Instr.mkc.faultOf zeroCtx abcLane = some .errCtxlocked := by decide
theorem witness_FaultPriority_uninit : zeroCtx.Issuing abcLane ∧ (Instr.gate 3 0 1 7 7).faultOf zeroCtx abcLane = some .errUninit := by
  decide
theorem witness_FaultPriority_none : (Instr.gate 3 0 1 2 7).faultOf zeroCtx abcLane = none := by decide

theorem witness_FaultPriority_reset : { faultedBefore with pending := [HostEvent.reset, .command 0 0 0] }.pending =
    .reset :: [.command 0 0 0] := rfl
theorem witness_FaultPriority_word : illegal.pending = .command 1 0x0000000040000000 0 :: [] ∧
    illegal.lanes[1]? = some (Lane.fresh 1) ∧ decode 0x0000000040000000 = .error .reservedOpcode := by decide

theorem witness_FaultingCommandIsNullified : ∃ t ln', illegal.pending = .command 1 0x0000000040000000 0 :: [] ∧
    step illegal = .next t ∧ t.lanes[1]? = some ln' ∧ ln'.response = some ⟨.err .errIllegal, 0⟩ :=
  ⟨_, _, rfl, rfl, rfl, rfl⟩
theorem witness_FirstErrIsSticky :
    (∃ t, step (present faultedBefore 0 0x0000000040000000) = .next t) ∧
      (∀ rest, (present faultedBefore 0 0x0000000040000000).pending ≠ .reset :: rest) ∧
      ∃ ln, faultedBefore.lanes[0]? = some ln ∧ ln.firstErr ≠ 0 :=
  ⟨⟨_, rfl⟩, present_noReset _ _ _ _, _, rfl, by decide⟩
theorem witness_FaultFreeEndIsEvidence : ∃ t, step (present zeroCtx 0 0x0000000010E00000) = .next t ∧
    (∀ rest, (present zeroCtx 0 0x0000000010E00000).pending ≠ .reset :: rest) ∧ t.FaultFree :=
  ⟨_, rfl, present_noReset _ _ _ _, by unfold State.FaultFree; decide⟩

theorem witness_MkcCommand : noCtx.Issuing abcLane ∧ noCtx.ctx = none := ⟨rfl, rfl⟩
theorem witness_MkcCommand_locked : zeroCtx.Issuing abcLane ∧ ∃ rk, zeroCtx.ctx = some rk := ⟨rfl, _, rfl⟩
theorem witness_CtxclrCommand : zeroCtx.Issuing abcLane ∧
    (∃ ln', (State.answered { zeroCtx with ctx := none } abcLane .ok 0).lanes[1]? = some ln') ∧
    (Instr.rdrk 0).wellFormed = true ∧ (Instr.rdrk 0).readsContext = true := ⟨rfl, ⟨_, rfl⟩, rfl, rfl⟩
theorem witness_RdrkCommand : noCtx.Issuing abcLane ∧ (14 : RkIdx).val < 15 ∧ noCtx.ctx = none ∧
    ∃ rk, zeroCtx.ctx = some rk := ⟨rfl, by decide, rfl, _, rfl⟩
theorem witness_RdrkCommand_zero : bench.Issuing abcLane ∧ bench.ctx = some (keyExpand benchKey) := ⟨rfl, rfl⟩
theorem witness_EncCommand : zeroCtx.Issuing abcLane ∧ (∃ rk, zeroCtx.ctx = some rk) ∧ abcLane.labels[(7 : LReg)] = none ∧
    ∃ a, abcLane.labels[(0 : LReg)] = some a := ⟨rfl, ⟨_, rfl⟩, by decide, _, rfl⟩
theorem witness_EncCommand_noctx : noCtx.Issuing abcLane ∧ noCtx.ctx = none := ⟨rfl, rfl⟩
theorem witness_LdlCommand : noCtx.Issuing abcLane := rfl
theorem witness_LdzLoadsZero : { zeroCtx with pending := [ldz 1 7] }.pending = ldz 1 7 :: [] ∧
    zeroCtx.lanes[1]? = some (Lane.fresh 1) := ⟨rfl, rfl⟩
theorem witness_StlCommand : noCtx.Issuing abcLane ∧ abcLane.labels[(7 : LReg)] = none ∧
    ∃ a, abcLane.labels[(0 : LReg)] = some a := ⟨rfl, by decide, _, rfl⟩
theorem witness_XorCommand : noCtx.Issuing abcLane ∧
    (abcLane.labels[(7 : LReg)] = none ∨ abcLane.labels[(0 : LReg)] = none) ∧
    ∃ a b, abcLane.labels[(0 : LReg)] = some a ∧ abcLane.labels[(1 : LReg)] = some b :=
  ⟨rfl, .inl (by decide), _, _, rfl, rfl⟩
theorem witness_DblCommand : noCtx.Issuing abcLane ∧ abcLane.labels[(7 : LReg)] = none ∧
    ∃ a, abcLane.labels[(1 : LReg)] = some a := ⟨rfl, by decide, _, rfl⟩
theorem witness_QuadCommand : noCtx.Issuing abcLane ∧ abcLane.labels[(3 : LReg)] = none ∧
    ∃ a, abcLane.labels[(2 : LReg)] = some a := ⟨rfl, by decide, _, rfl⟩
theorem witness_CtwkCommand : noCtx.Issuing abcLane ∧
    (abcLane.labels[(0 : LReg)] = none ∨ abcLane.labels[(7 : LReg)] = none) ∧
    ∃ a b, abcLane.labels[(0 : LReg)] = some a ∧ abcLane.labels[(1 : LReg)] = some b :=
  ⟨rfl, .inr (by decide), _, _, rfl, rfl⟩
theorem witness_GateCommand : zeroCtx.Issuing abcLane ∧ (∃ rk, zeroCtx.ctx = some rk) ∧
    ∃ a b c k : Label, abcLane.labels[(0 : LReg)] = some a ∧ abcLane.labels[(1 : LReg)] = some b ∧
      abcLane.labels[(2 : LReg)] = some c ∧
      k = BitVec.ofNat 128 (2 * a.toNat) ^^^ BitVec.ofNat 128 (4 * b.toNat) ^^^ BitVec.ofNat 128 (7 : Tweak).toNat :=
  ⟨rfl, ⟨_, rfl⟩, _, _, _, _, rfl, rfl, rfl, rfl⟩
theorem witness_GateCommand_uninit : zeroCtx.Issuing abcLane ∧ (abcLane.labels[(0 : LReg)] = none ∨
    abcLane.labels[(1 : LReg)] = none ∨ abcLane.labels[(7 : LReg)] = none) := ⟨rfl, .inr (.inr (by decide))⟩
theorem witness_GateCommand_noctx : noCtx.Issuing abcLane ∧ noCtx.ctx = none := ⟨rfl, rfl⟩
theorem witness_RdstCommand : zeroCtx.Issuing abcLane := rfl

theorem witness_SboxIsAffineOfInverse : (0xFF : Byte) ≠ 0 := by decide
theorem witness_KeyStepWords : ∃ temp : Word32, temp = (sbox (blockByte benchKey 13) ^^^ 0x4D) ++ sbox (blockByte benchKey 14) ++
    sbox (blockByte benchKey 15) ++ sbox (blockByte benchKey 12) ∧ (0 < 3 ∧ 2 < 3) := ⟨_, rfl, by decide⟩
theorem witness_FullRoundBytes : ∃ a : Nat → Byte, 3 < 4 ∧
    ∀ r < 4, a r = sbox (blockByte benchKey (r + 4 * ((3 + r) % 4))) := ⟨_, by decide, fun _ _ => rfl⟩
theorem witness_FinalRoundBytes : 0 < 4 ∧ 3 < 4 := by decide
theorem witness_EncryptIsFourteenRounds : ∃ st : Nat → Label,
    st 0 = benchKey ^^^ (Vector.replicate 15 (0 : Label))[0] ∧
      ∀ (i : Nat) (_ : i < 13), st (i + 1) = fullRound (st i) (Vector.replicate 15 (0 : Label))[i + 1] :=
  ⟨fun n => Nat.rec (benchKey ^^^ 0) (fun _ x => fullRound x 0) n, rfl, fun i _ => by simp [Vector.getElem_replicate]⟩
theorem witness_DoubleAndQuadrupleCarry : ∃ hi lo : BitVec 64,
    hi = (0x80000000000000008000000000000000 : Label).extractLsb' 64 64 ∧
      lo = (0x80000000000000008000000000000000 : Label).extractLsb' 0 64 := ⟨_, _, rfl, rfl⟩
theorem witness_GateIgnoresDiscardedBits : labelDbl 2 ^^^ labelQuad 1 = labelDbl 0 ^^^ labelQuad 0 := by decide
theorem witness_GateIsDeterministic : ∃ rk a b c, zeroCtx.Issuing abcLane ∧ faultedBefore.Issuing { abcLane with firstErr := 4 } ∧
    zeroCtx.ctx = some rk ∧ faultedBefore.ctx = some rk ∧ abcLane.labels[(0 : LReg)] = some a ∧
    abcLane.labels[(1 : LReg)] = some b ∧ abcLane.labels[(2 : LReg)] = some c :=
  ⟨_, _, _, _, rfl, rfl, rfl, rfl, rfl, rfl, rfl⟩
theorem witness_EvaluateUndoesGarble : ∃ rk a b c, zeroCtx.Issuing abcLane ∧ zeroCtx.ctx = some rk ∧
    abcLane.labels[(0 : LReg)] = some a ∧ abcLane.labels[(1 : LReg)] = some b ∧ abcLane.labels[(2 : LReg)] = some c ∧
    (2 : LReg) ≠ 0 ∧ (2 : LReg) ≠ 1 := ⟨_, _, _, _, rfl, rfl, rfl, rfl, rfl, by decide, by decide⟩
theorem witness_GateEqualsFourCommands : ∃ rk a b c, zeroCtx.Issuing abcLane ∧ zeroCtx.ctx = some rk ∧
    abcLane.labels[(0 : LReg)] = some a ∧ abcLane.labels[(1 : LReg)] = some b ∧ abcLane.labels[(2 : LReg)] = some c ∧
    (4 : LReg) ≠ 2 ∧ (5 : LReg) ≠ 4 ∧ (5 : LReg) ≠ 2 ∧ (6 : LReg) ≠ 2 :=
  ⟨_, _, _, _, rfl, rfl, rfl, rfl, rfl, by decide, by decide, by decide, by decide⟩

theorem witness_OtherLanesUntouched : (present zeroCtx 1 0x0000000010000000).pending = .command 1 0x0000000010000000 0 :: [] ∧
    ∃ t, step (present zeroCtx 1 0x0000000010000000) = .next t := ⟨rfl, _, rfl⟩
theorem witness_CommandSeesOnlyItsLane : zeroCtx.Issuing abcLane ∧
    State.Issuing { zeroCtx with lanes := [Lane.fresh 0, abcLane], lane := 1 } abcLane ∧
    ∃ t, exec (.stl 0) zeroCtx = .next t := ⟨rfl, rfl, _, rfl⟩
theorem witness_CommandsOfDifferentLanesCommute : 0 ≠ 1 ∧ 0 < noCtx.lanes.length ∧ 1 < noCtx.lanes.length ∧
    ¬(Instr.writesContext .mkc ∧ Instr.touchesContext (.ldl 0)) ∧ ¬(Instr.writesContext (.ldl 0) ∧ Instr.touchesContext .mkc) := by
  simp [Instr.writesContext, Instr.touchesContext, Instr.readsContext, noCtx]
theorem witness_OneMkcWinsTheRace : noCtx.ctx = none ∧ 0 ≠ 1 ∧ 0 < noCtx.lanes.length ∧ 1 < noCtx.lanes.length := by decide

theorem witness_CommandWritesOnlyItsDestination : (∃ t, exec (.gate 3 0 1 2 7) zeroCtx = .next t) ∧
    ∃ t, exec .mkc zeroCtx = .next t := ⟨⟨_, rfl⟩, _, rfl⟩
theorem witness_DoutOnlyFromReads_ok : ∃ t ln', exec (.stl 0) zeroCtx = .next t ∧ zeroCtx.Issuing abcLane ∧
    t.lanes[zeroCtx.lane]? = some ln' ∧ ln'.response = some ⟨.ok, 0x00000000000000010000000000000000⟩ :=
  ⟨_, _, rfl, rfl, rfl, rfl⟩
theorem witness_DoutOnlyFromReads_rdrk : ∃ t ln' d, exec (.rdrk 14) zeroCtx = .next t ∧
    t.lanes[zeroCtx.lane]? = some ln' ∧ ln'.response = some ⟨.ok, d⟩ := ⟨_, _, _, rfl, rfl, rfl⟩
theorem witness_DoutOnlyFromReads_rdst : ∃ t ln' d, exec .rdst zeroCtx = .next t ∧
    t.lanes[zeroCtx.lane]? = some ln' ∧ ln'.response = some ⟨.ok, d⟩ := ⟨_, _, _, rfl, rfl, rfl⟩
theorem witness_DoutOnlyFromReads_nine : ∃ t ln' d, exec (.ldl 0) zeroCtx = .next t ∧
    t.lanes[zeroCtx.lane]? = some ln' ∧ ln'.response = some ⟨.ok, d⟩ := ⟨_, _, _, rfl, rfl, rfl⟩
theorem witness_DoutOnlyFromReads_fault : ∃ t ln', exec (.stl 7) zeroCtx = .next t ∧
    t.lanes[zeroCtx.lane]? = some ln' ∧ ln'.response = some ⟨.err .errUninit, 0⟩ := ⟨_, _, rfl, rfl, rfl⟩
theorem witness_DinReadByMkcAndLdlOnly : noCtx.Issuing abcLane ∧ noCtx.ctx = none ∧ Instr.stl 0 ≠ .mkc ∧
    (∀ rd, Instr.stl 0 ≠ .ldl rd) ∧ ∃ t, exec (.stl 0) noCtx = .next t :=
  ⟨rfl, rfl, by decide, fun _ h => (nomatch h), _, rfl⟩
theorem witness_ContextIsImmutable : ∃ rk t, zeroCtx.ctx = some rk ∧ step (present zeroCtx 0 0x0000000001000000) = .next t ∧
    (∀ rest, (present zeroCtx 0 0x0000000001000000).pending ≠ .reset :: rest) ∧ decode 0x0000000001000000 ≠ .ok .ctxclr :=
  ⟨_, _, rfl, rfl, present_noReset _ _ _ _, by decide⟩
theorem witness_ValidBitsClearedByResetOnly : (∃ t, step (present zeroCtx 0 0x0000000002000000) = .next t) ∧
    (∀ rest, (present zeroCtx 0 0x0000000002000000).pending ≠ .reset :: rest) ∧ abcLane.lv 2 = true :=
  ⟨⟨_, rfl⟩, present_noReset _ _ _ _, by decide⟩
theorem witness_DestroyedContentsLeaveNoTrace :
    ∃ t t', step { zeroCtx with pending := [.reset] } = .next t ∧
      step { State.resetWith 2 with pending := [.reset] } = .next t' ∧
      zeroCtx.lanes.map Lane.laneId = (State.resetWith 2).lanes.map Lane.laneId := ⟨_, _, rfl, rfl, by decide⟩
/-- Another L0, other round keys, another DIN: what the second of the two states compared differs in. -/
def otherLane : Lane := { abcLane with labels := abcLane.labels.set 0 (some 9) }

theorem witness_StatusIsDataIndependent : ∃ s' : State,
    (Instr.gate 3 0 1 2 7).eraseTweak = (Instr.gate 3 0 1 2 8).eraseTweak ∧ zeroCtx.Issuing abcLane ∧
      s'.Issuing otherLane ∧ zeroCtx.ctxv = s'.ctxv ∧ ∀ r, abcLane.lv r = otherLane.lv r :=
  ⟨{ withCtx (Vector.replicate 15 1) with lanes := [Lane.fresh 0, otherLane], lane := 1, din := 5 },
    rfl, rfl, rfl, rfl, by decide⟩
theorem witness_EveryCommandIsAnswered : ∀ (p : Nat) (cw : CmdWord) (din : Label) (rest : List HostEvent),
    (present noCtx 1 0).pending = .command p cw din :: rest → p < (present noCtx 1 0).lanes.length := by
  intro p cw din rest h
  cases h
  decide
theorem witness_ResetMeetsInvariant : 1 ≤ 1 ∧ 1 ≤ 256 ∧ 256 ≤ 256 := by decide

/-- A context and two lanes, the second of which has faulted and answered so; an `MKC` pending, then RESET. -/
def invState : State where
  ctx     := some (keyExpand benchKey)
  lanes   := [Lane.fresh 0, { Lane.fresh 1 with firstErr := 2, response := some ⟨.err .errNoctx, 0⟩ }]
  lane    := 0
  din     := 0
  pending := [.command 1 0x0000000001000000 benchKey, .reset]

theorem invState_inv : invState.Inv := by
  refine ⟨by decide, ?_, by decide, ?_, fun rk h => by cases h; rfl⟩
  · intro p ln h
    match p with
    | 0 => cases h; rfl
    | 1 => cases h; rfl
    | n + 2 => simp [invState] at h
  · intro ln h c d hr
    simp only [invState, List.mem_cons, List.not_mem_nil, or_false] at h
    rcases h with rfl | rfl
    · cases hr
    · cases hr; decide

theorem witness_StepKeepsInvariant : invState.Inv ∧ ∃ t, step invState = .next t := ⟨invState_inv, _, rfl⟩

end Sys2Proof.Tests
end

section
/-! PROOFS. The family of 10_state.md: what one step does to the lanes and to the shared context, said once, and from it
the invariant (R11, R15 to R17) and the rules of R12, R13, R17 and R21. -/

namespace Sys2Proof.Machine

/-! ## What a command that ends with `OK` does to its lane and to the context -/

/-- The issuing lane after a command with this effect. -/
def Effect.onLane (ln : Lane) : Effect → Lane
  | .setContext _ => ln.respond .ok 0
  | .setLabel rd v => (ln.writeLabel rd v).respond .ok 0
  | .drive dout => ln.respond .ok dout

/-- The shared context after a command with this effect. -/
def Effect.onContext (ctx : Option Schedule) : Effect → Option Schedule
  | .setContext ctx' => ctx'
  | .setLabel _ _ => ctx
  | .drive _ => ctx

theorem State.finish_lanes (s : State) (ln : Lane) (e : Effect) :
    (s.finish ln e).lanes = s.lanes.set s.lane (e.onLane ln) := by
  cases e <;> rfl

theorem State.finish_ctx (s : State) (ln : Lane) (e : Effect) : (s.finish ln e).ctx = e.onContext s.ctx := by
  cases e <;> rfl

@[simp] theorem Effect.onLane_laneId (ln : Lane) (e : Effect) : (e.onLane ln).laneId = ln.laneId := by
  cases e <;> rfl

@[simp] theorem Effect.onLane_firstErr (ln : Lane) (e : Effect) : (e.onLane ln).firstErr = ln.firstErr := by
  cases e <;> rfl

theorem Effect.onLane_response (ln : Lane) (e : Effect) : ∃ d, (e.onLane ln).response = some ⟨.ok, d⟩ := by
  cases e <;> exact ⟨_, rfl⟩

/-- A label write sets its own LV bit and no effect clears one (R13). -/
theorem Effect.onLane_lv {ln : Lane} {r : LReg} (e : Effect) (h : ln.lv r = true) : (e.onLane ln).lv r = true := by
  cases e with
  | setContext ctx => exact h
  | drive d => exact h
  | setLabel rd v =>
    simp only [Lane.lv, Fin.getElem_fin, Effect.onLane, Lane.respond_labels, Lane.writeLabel_labels] at h ⊢
    rw [Vector.getElem_set]
    split
    · rfl
    · exact h

/-- Of the twelve commands only `CTXCLR` and an `MKC` that finds no context change the context (R21). -/
theorem EffectOf.onContext {i : Instr} {s : State} {e : Effect} (h : EffectOf i s e) :
    e.onContext s.ctx = s.ctx ∨ (i = .ctxclr ∧ e.onContext s.ctx = none) ∨
      (s.ctx = none ∧ e.onContext s.ctx = some (keyExpand s.din)) := by
  cases i
  case mkc => obtain ⟨hctx, rfl⟩ := h; exact .inr (.inr ⟨hctx, rfl⟩)
  case ctxclr => cases h; exact .inr (.inl ⟨rfl, rfl⟩)
  all_goals obtain ⟨v, rfl⟩ := h; exact .inl rfl

/-! ## What answering a command can make of its lane -/

/-- `ln.Answers ln'`: the lane `ln` became `ln'` by answering a command, with a fault or with `OK`. -/
inductive Lane.Answers (ln : Lane) : Lane → Prop
  | fault (c : ErrCode) : Lane.Answers ln (ln.takeFault c)
  | complete (e : Effect) : Lane.Answers ln (e.onLane ln)

theorem latchFirstErr_of_ne_zero {f : BitVec 4} (c : ErrCode) (h : f ≠ 0) : latchFirstErr f c = f :=
  if_neg h

theorem latchFirstErr_ne_zero (f : BitVec 4) (c : ErrCode) : latchFirstErr f c ≠ 0 := by
  unfold latchFirstErr
  split
  · cases c <;> decide
  · assumption

theorem latchFirstErr_le_four {f : BitVec 4} (c : ErrCode) (h : f.toNat ≤ 4) : (latchFirstErr f c).toNat ≤ 4 := by
  unfold latchFirstErr
  split
  · cases c <;> decide
  · exact h

namespace Lane.Answers

variable {ln ln' : Lane}

theorem laneId_eq (h : ln.Answers ln') : ln'.laneId = ln.laneId := by
  cases h <;> simp

theorem firstErr_eq (h : ln.Answers ln') (hf : ln.firstErr ≠ 0) : ln'.firstErr = ln.firstErr := by
  cases h with
  | fault c => exact latchFirstErr_of_ne_zero c hf
  | complete e => exact e.onLane_firstErr ln

theorem firstErr_le_four (h : ln.Answers ln') (hf : ln.firstErr.toNat ≤ 4) : ln'.firstErr.toNat ≤ 4 := by
  cases h with
  | fault c => exact latchFirstErr_le_four c hf
  | complete e => simpa using hf

/-- A faulted answer drives 0 and is on record (R146, R147). -/
theorem faultLatched (h : ln.Answers ln') {c : ErrCode} {d : Label} (hr : ln'.response = some ⟨.err c, d⟩) :
    d = 0 ∧ ln'.firstErr ≠ 0 := by
  cases h with
  | fault c' =>
    cases hr
    exact ⟨rfl, latchFirstErr_ne_zero _ _⟩
  | complete e =>
    obtain ⟨d', hok⟩ := e.onLane_response ln
    rw [hok] at hr
    cases hr

theorem lv (h : ln.Answers ln') {r : LReg} (hv : ln.lv r = true) : ln'.lv r = true := by
  cases h with
  | fault c => exact hv
  | complete e => exact e.onLane_lv hv

end Lane.Answers

/-! ## What one step can do -/

theorem step_idle {s : State} (h : s.pending = []) : step s = .next s := by
  simp [step, State.fetch, h]

theorem step_command {s : State} {p : Nat} {cw : CmdWord} {din : Label} {rest : List HostEvent} {i : Instr}
    (h : s.pending = .command p cw din :: rest) (hd : decode cw = .ok i) :
    step s = exec i { s with lane := p, din := din, pending := rest } := by
  simp [step, State.fetch, h, hd]

theorem illegalWord_next {s t : State} (h : illegalWord s = .next t) :
    ∃ ln, s.lanes[s.lane]? = some ln ∧ t = s.putLane (ln.takeFault .errIllegal) := by
  obtain ⟨ln, hl, ⟨c, hc, ht⟩ | ⟨e, he, -⟩⟩ := perform_next.mp h
  · cases hc
    exact ⟨ln, hl, ht⟩
  · cases he

/-- Everything the step of a presented word can do: its lane takes a fault, or the effect of the command it spells
happens. -/
theorem step_command_next {s t : State} {p : Nat} {cw : CmdWord} {din : Label} {rest : List HostEvent}
    (hp : s.pending = .command p cw din :: rest) (h : step s = .next t) :
    ∃ s₀ ln, s₀ = { s with lane := p, din := din, pending := rest } ∧ s.lanes[p]? = some ln ∧
      ((∃ c, t = s₀.putLane (ln.takeFault c)) ∨
        ∃ i e, decode cw = .ok i ∧ EffectOf i s₀ e ∧ t = s₀.finish ln e) := by
  cases hd : decode cw with
  | error e =>
    rw [step_illegal hp hd] at h
    obtain ⟨ln, hl, ht⟩ := illegalWord_next h
    exact ⟨_, ln, rfl, hl, .inl ⟨_, ht⟩⟩
  | ok i =>
    rw [step_command hp hd] at h
    obtain ⟨ln, hl, hfault | ⟨e, he, ht⟩⟩ := exec_next h
    · exact ⟨_, ln, rfl, hl, .inl hfault⟩
    · exact ⟨_, ln, rfl, hl, .inr ⟨i, e, rfl, he, ht⟩⟩

/-- Of the lanes, a presented word changes the one it is presented on, by answering (R12). -/
theorem step_command_lanes {s t : State} {p : Nat} {cw : CmdWord} {din : Label} {rest : List HostEvent}
    (hp : s.pending = .command p cw din :: rest) (h : step s = .next t) :
    ∃ ln ln', s.lanes[p]? = some ln ∧ ln.Answers ln' ∧ t.lanes = s.lanes.set p ln' := by
  obtain ⟨s₀, ln, rfl, hl, ⟨c, rfl⟩ | ⟨i, e, -, -, rfl⟩⟩ := step_command_next hp h
  · exact ⟨ln, _, hl, .fault c, rfl⟩
  · exact ⟨ln, _, hl, .complete e, State.finish_lanes _ _ _⟩

/-- A presented word leaves the context alone, destroys it as `CTXCLR`, or builds it from DIN where there was none. -/
theorem step_command_ctx {s t : State} {p : Nat} {cw : CmdWord} {din : Label} {rest : List HostEvent}
    (hp : s.pending = .command p cw din :: rest) (h : step s = .next t) :
    t.ctx = s.ctx ∨ (decode cw = .ok .ctxclr ∧ t.ctx = none) ∨ (s.ctx = none ∧ t.ctx = some (keyExpand din)) := by
  obtain ⟨s₀, ln, rfl, -, ⟨c, rfl⟩ | ⟨i, e, hd, he, rfl⟩⟩ := step_command_next hp h
  · exact .inl rfl
  · rw [State.finish_ctx]
    obtain hkeep | ⟨rfl, hclear⟩ | hbuild := he.onContext
    · exact .inl hkeep
    · exact .inr (.inl ⟨hd, hclear⟩)
    · exact .inr (.inr hbuild)

/-- A step other than RESET leaves each lane as it is, or the lane answers a command. -/
theorem step_lane_of_not_reset {s t : State} {p : Nat} {ln : Lane} (h : step s = .next t)
    (hnr : ∀ rest, s.pending ≠ .reset :: rest) (hl : s.lanes[p]? = some ln) :
    ∃ ln', t.lanes[p]? = some ln' ∧ (ln' = ln ∨ ln.Answers ln') := by
  match hp : s.pending with
  | [] =>
    rw [step_idle hp] at h
    cases h
    exact ⟨ln, hl, .inl rfl⟩
  | .reset :: rest => exact absurd hp (hnr rest)
  | .command q cw din :: rest =>
    obtain ⟨lq, lq', hq, ha, ht⟩ := step_command_lanes hp h
    rw [ht]
    by_cases hqp : q = p
    · subst hqp
      obtain rfl : lq = ln := Option.some.inj (hq.symm.trans hl)
      exact ⟨lq', List.getElem?_set_self (List.getElem?_eq_some_iff.mp hl).1, .inr ha⟩
    · exact ⟨ln, (List.getElem?_set_ne hqp).trans hl, .inl rfl⟩

/-! ## The invariant -/

/-- `KeyExpand` keeps the key as its first round key (R75), so every schedule it makes is that of its `RK[0]`. -/
theorem keyExpand_first (key : Label) : keyExpand (keyExpand key)[0] = keyExpand key := rfl

/-- An answered command keeps every clause about the lanes, whatever it does to the context. -/
theorem State.Inv.of_answer {s t : State} {p : Nat} {ln ln' : Lane} (hs : s.Inv) (hl : s.lanes[p]? = some ln)
    (ha : ln.Answers ln') (ht : t.lanes = s.lanes.set p ln')
    (hctx : ∀ rk : Schedule, t.ctx = some rk → rk = keyExpand rk[0]) : t.Inv := by
  have hmem : ln ∈ s.lanes := List.mem_of_getElem? hl
  refine ⟨?laneCount, ?laneIds, ?firstErrLegal, ?faultLatched, hctx⟩ <;> rw [ht]
  case laneCount => simpa using hs.laneCount
  case laneIds =>
    intro q lq hq
    rw [List.getElem?_set] at hq
    split at hq
    next hpq =>
      subst hpq
      split at hq
      · cases hq
        exact ha.laneId_eq.trans (hs.laneIds p ln hl)
      · cases hq
    next => exact hs.laneIds q lq hq
  case firstErrLegal =>
    intro lq hq
    obtain hq | rfl := List.mem_or_eq_of_mem_set hq
    · exact hs.firstErrLegal lq hq
    · exact ha.firstErr_le_four (hs.firstErrLegal ln hmem)
  case faultLatched =>
    intro lq hq c d hr
    obtain hq | rfl := List.mem_or_eq_of_mem_set hq
    · exact hs.faultLatched lq hq c d hr
    · exact ha.faultLatched hr

theorem State.Inv.applyReset {s : State} (hs : s.Inv) : s.applyReset.Inv where
  laneCount := by simpa using hs.laneCount
  laneIds := by
    intro p ln' h
    rw [State.applyReset_lanes, List.getElem?_map, Option.map_eq_some_iff] at h
    obtain ⟨ln, hl, rfl⟩ := h
    exact hs.laneIds p ln hl
  firstErrLegal := by simp
  faultLatched := by simp
  contextExpanded := by simp

end Sys2Proof.Machine

namespace Sys2Proof.Proofs

open Sys2Proof.Machine

/-- Settles O56, by the kind of event the step takes. -/
theorem stepKeepsInvariant : Obligations.StepKeepsInvariant := by
  intro s t hs h
  match hp : s.pending with
  | [] =>
    rw [step_idle hp] at h
    cases h
    exact hs
  | .reset :: rest =>
    rw [step_reset_event hp] at h
    cases h
    have hs₀ : State.Inv { s with pending := rest } := { hs with }
    exact hs₀.applyReset
  | .command p cw din :: rest =>
    obtain ⟨ln, ln', hl, ha, ht⟩ := step_command_lanes hp h
    refine hs.of_answer hl ha ht fun rk hrk => ?_
    obtain hkeep | ⟨-, hclear⟩ | ⟨-, hbuild⟩ := step_command_ctx hp h
    · exact hs.contextExpanded rk (hkeep.symm.trans hrk)
    · cases hclear.symm.trans hrk
    · cases hbuild.symm.trans hrk
      exact (keyExpand_first din).symm

/-- Settles O15: an answer changes FIRSTERR only where it was 0 (R17). -/
theorem firstErrIsSticky : Obligations.FirstErrIsSticky := by
  intro s t p ln h hnr hl hf
  obtain ⟨ln', hl', rfl | ha⟩ := step_lane_of_not_reset h hnr hl
  · exact ⟨_, hl', rfl⟩
  · exact ⟨ln', hl', ha.firstErr_eq hf⟩

/-- Settles O51: an answer clears no LV bit (R13). -/
theorem validBitsClearedByResetOnly : Obligations.ValidBitsClearedByResetOnly := by
  intro s t p ln r h hnr hl hv
  obtain ⟨ln', hl', rfl | ha⟩ := step_lane_of_not_reset h hnr hl
  · exact ⟨_, hl', hv⟩
  · exact ⟨ln', hl', ha.lv hv⟩

/-- Settles O43: the lanes after are the lanes before with lane p replaced. -/
theorem otherLanesUntouched : Obligations.OtherLanesUntouched := by
  intro s t p cw din rest hp h
  obtain ⟨ln, ln', -, -, ht⟩ := step_command_lanes hp h
  rw [ht]
  exact ⟨List.length_set, fun q hq => List.getElem?_set_ne hq.symm⟩

/-- Settles O50: with a context present, of the three things a presented word can do to it only `CTXCLR`'s changes it. -/
theorem contextIsImmutable : Obligations.ContextIsImmutable := by
  intro s t rk hctx h hnr hnc
  match hp : s.pending with
  | [] =>
    rw [step_idle hp] at h
    cases h
    exact hctx
  | .reset :: rest => exact absurd hp (hnr rest)
  | .command p cw din :: rest =>
    obtain hkeep | ⟨hd, -⟩ | ⟨hnone, -⟩ := step_command_ctx hp h
    · exact hkeep.trans hctx
    · exact absurd hd (hnc p cw din rest hp)
    · cases hnone.symm.trans hctx

end Sys2Proof.Proofs

namespace Sys2Proof.Machine

/-! ## What a command reads -/

theorem State.readContext_congr {s s' : State} (h : s.ctx = s'.ctx) : s.readContext = s'.readContext := by
  rw [State.readContext, State.readContext, h]

theorem statusWord_congr {s s' : State} (h : s.ctx = s'.ctx) (ln : Lane) : statusWord s ln = statusWord s' ln := by
  rw [statusWord, statusWord, State.ctxv, State.ctxv, h]

/-- A command's checks and computation are the same function of its lane in all states with the same context and DIN
(R12). -/
theorem exec_same_body (i : Instr) {s s' : State} (hctx : s.ctx = s'.ctx) (hdin : s.din = s'.din) :
    ∃ body, exec i s = perform s body ∧ exec i s' = perform s' body := by
  cases i <;>
    simp only [exec, execMkc, execCtxclr, execRdrk, execEnc, execLdl, execStl, execXor, execDbl, execQuad, execCtwk,
      execGate, execRdst] <;>
    refine ⟨_, rfl, ?_⟩
  case mkc => rw [hctx, hdin]
  case ldl => rw [hdin]
  case rdrk => rw [State.readContext_congr hctx]
  case enc => rw [State.readContext_congr hctx]
  case gate => rw [State.readContext_congr hctx]
  case rdst => simp only [statusWord_congr hctx]
  all_goals rfl

end Sys2Proof.Machine

namespace Sys2Proof.Proofs

open Sys2Proof.Machine

/-- Settles O44: the two states run the same body on the same lane. -/
theorem commandSeesOnlyItsLane : Obligations.CommandSeesOnlyItsLane := by
  intro i s s' t ln hl hl' hctx hdin h
  obtain ⟨body, hs, hs'⟩ := exec_same_body i hctx hdin
  rw [hs] at h
  rw [hs']
  have hlt : s.lane < s.lanes.length := (List.getElem?_eq_some_iff.mp hl).1
  have hlt' : s'.lane < s'.lanes.length := (List.getElem?_eq_some_iff.mp hl').1
  cases hb : body ln with
  | error c =>
    rw [perform_error hl hb] at h
    cases h
    refine ⟨_, perform_error hl' hb, hctx.symm, ?_⟩
    simp [hlt, hlt']
  | ok e =>
    rw [perform_ok hl hb] at h
    cases h
    refine ⟨_, perform_ok hl' hb, ?_, ?_⟩
    · rw [State.finish_ctx, State.finish_ctx, hctx]
    · simp [State.finish_lanes, hlt, hlt']

end Sys2Proof.Proofs
end

section
/-! PROOFS. The family of 20_memory.md: what one command may write (R37), when two commands of different lanes commute
(R41), and the race for the context (R44). -/

namespace Sys2Proof

theorem Instr.writesContext.touchesContext {i : Instr} (h : i.writesContext) : i.touchesContext :=
  h.imp_right .inl

end Sys2Proof

namespace Sys2Proof.Machine

@[simp] theorem State.onPort_ctx (s : State) (p : Nat) (din : Label) : (s.onPort p din).ctx = s.ctx := rfl
@[simp] theorem State.onPort_lanes (s : State) (p : Nat) (din : Label) : (s.onPort p din).lanes = s.lanes := rfl
@[simp] theorem State.onPort_lane (s : State) (p : Nat) (din : Label) : (s.onPort p din).lane = p := rfl
@[simp] theorem State.onPort_din (s : State) (p : Nat) (din : Label) : (s.onPort p din).din = din := rfl
@[simp] theorem State.onPort_pending (s : State) (p : Nat) (din : Label) : (s.onPort p din).pending = s.pending := rfl

/-! ## What a completing command leaves unchanged -/

/-- A command that completes writes the context (`MKC`, `CTXCLR` alone), its destination register, or nothing (R37). -/
theorem EffectOf.cases {i : Instr} {s : State} {e : Effect} (h : EffectOf i s e) :
    (i.writesContext ∧ ∃ c, e = .setContext c) ∨ (∃ rd v, i.dest = some rd ∧ e = .setLabel rd v) ∨
      ∃ d, e = .drive d := by
  cases i
  case mkc => exact .inl ⟨.inl rfl, _, h.2⟩
  case ctxclr => exact .inl ⟨.inr rfl, _, h⟩
  case rdrk => exact .inr (.inr h)
  case stl => exact .inr (.inr h)
  case rdst => exact .inr (.inr h)
  all_goals
    obtain ⟨v, rfl⟩ := h
    exact .inr (.inl ⟨_, v, rfl, rfl⟩)

theorem EffectOf.onContext_of_not_writesContext {i : Instr} {s : State} {e : Effect} (h : EffectOf i s e)
    (hi : ¬i.writesContext) (ctx : Option Schedule) : e.onContext ctx = ctx := by
  obtain ⟨hw, -⟩ | ⟨rd, v, -, rfl⟩ | ⟨d, rfl⟩ := h.cases
  · exact absurd hw hi
  · rfl
  · rfl

theorem EffectOf.onLane_label_of_ne_dest {i : Instr} {s : State} {e : Effect} (h : EffectOf i s e) (ln : Lane)
    {x : LReg} (hx : i.dest ≠ some x) : (e.onLane ln).labels[x] = ln.labels[x] := by
  obtain ⟨-, c, rfl⟩ | ⟨rd, v, hd, rfl⟩ | ⟨d, rfl⟩ := h.cases
  · rfl
  · have hne : rd.val ≠ x.val := fun heq => hx (hd.trans (congrArg some (Fin.ext heq)))
    exact Vector.getElem_set_ne rd.isLt x.isLt hne
  · rfl

@[simp] theorem State.finish_lane (s : State) (ln : Lane) (e : Effect) : (s.finish ln e).lane = s.lane := by
  cases e <;> rfl

@[simp] theorem State.finish_din (s : State) (ln : Lane) (e : Effect) : (s.finish ln e).din = s.din := by
  cases e <;> rfl

@[simp] theorem State.finish_pending (s : State) (ln : Lane) (e : Effect) : (s.finish ln e).pending = s.pending := by
  cases e <;> rfl

theorem exec_ctx_of_not_writesContext {i : Instr} {s t : State} (hi : ¬i.writesContext) (h : exec i s = .next t) :
    t.ctx = s.ctx := by
  obtain ⟨ln, -, ⟨c, rfl⟩ | ⟨e, he, rfl⟩⟩ := exec_next h
  · rfl
  · exact (State.finish_ctx s ln e).trans (he.onContext_of_not_writesContext hi s.ctx)

theorem exec_other_lane {i : Instr} {s t : State} {p : Nat} (hp : s.lane ≠ p) (h : exec i s = .next t) :
    t.lanes[p]? = s.lanes[p]? := by
  obtain ⟨ln, -, ⟨c, rfl⟩ | ⟨e, -, rfl⟩⟩ := exec_next h
  · exact List.getElem?_set_ne hp
  · rw [State.finish_lanes]
    exact List.getElem?_set_ne hp

/-! ## The end of a command, as a function of what its checks and computation gave -/

/-- The state after a command on lane `ln` whose checks and computation gave `r`: the fault is taken or the effect
happens. -/
def State.conclude (s : State) (ln : Lane) (r : Except ErrCode Effect) : State :=
  match r with
  | .error c => s.putLane (ln.takeFault c)
  | .ok e => s.finish ln e

theorem perform_of_issuing {s : State} {ln : Lane} (body : Lane → Except ErrCode Effect) (hl : s.Issuing ln) :
    perform s body = .next (s.conclude ln (body ln)) := by
  cases hb : body ln with
  | error c => exact perform_error hl hb
  | ok e => exact perform_ok hl hb

/-- What the issuing lane becomes does not depend on the state around it. -/
theorem State.conclude_lanes (ln : Lane) (r : Except ErrCode Effect) :
    ∃ ln', ∀ s : State, (s.conclude ln r).lanes = s.lanes.set s.lane ln' := by
  cases r with
  | error c => exact ⟨ln.takeFault c, fun _ => rfl⟩
  | ok e => exact ⟨e.onLane ln, fun s => s.finish_lanes ln e⟩

theorem State.conclude_ctx_congr {s s' : State} (h : s.ctx = s'.ctx) (ln : Lane) (r : Except ErrCode Effect) :
    (s.conclude ln r).ctx = (s'.conclude ln r).ctx := by
  cases r with
  | error c => exact h
  | ok e => simp only [State.conclude, State.finish_ctx, h]

@[simp] theorem State.conclude_pending (s : State) (ln : Lane) (r : Except ErrCode Effect) :
    (s.conclude ln r).pending = s.pending := by
  cases r with
  | error c => rfl
  | ok e => exact s.finish_pending ln e

/-! ## A command after another lane's command (R41) -/

/-- A command that does not touch the context makes the same checks and computation whatever the context is. -/
theorem exec_same_body_of_not_touchesContext {i : Instr} {s s' : State} (hi : ¬i.touchesContext)
    (hdin : s.din = s'.din) : ∃ body, exec i s = perform s body ∧ exec i s' = perform s' body := by
  cases i
  case ldl rd => exact ⟨fun _ => .ok (.setLabel rd s.din), rfl, by rw [hdin]; rfl⟩
  case stl => exact ⟨_, rfl, rfl⟩
  case xor => exact ⟨_, rfl, rfl⟩
  case dbl => exact ⟨_, rfl, rfl⟩
  case quad => exact ⟨_, rfl, rfl⟩
  case ctwk => exact ⟨_, rfl, rfl⟩
  all_goals exact absurd (by simp [Instr.touchesContext, Instr.readsContext]) hi

/-- A command gives the same result on its lane in all states with the same DIN and, where it touches the context, the
same context. -/
theorem exec_same_result (i : Instr) {s s' : State} {ln : Lane} (hl : s.Issuing ln) (hl' : s'.Issuing ln)
    (hdin : s.din = s'.din) (hctx : i.touchesContext → s.ctx = s'.ctx) :
    ∃ r, exec i s = .next (s.conclude ln r) ∧ exec i s' = .next (s'.conclude ln r) := by
  have hbody : ∃ body, exec i s = perform s body ∧ exec i s' = perform s' body := by
    by_cases hi : i.touchesContext
    · exact exec_same_body i (hctx hi) hdin
    · exact exec_same_body_of_not_touchesContext hi hdin
  obtain ⟨body, hs, hs'⟩ := hbody
  exact ⟨body ln, hs.trans (perform_of_issuing body hl), hs'.trans (perform_of_issuing body hl')⟩

theorem exec_of_issuing (i : Instr) {s : State} {ln : Lane} (hl : s.Issuing ln) : ∃ t, exec i s = .next t := by
  obtain ⟨r, h, -⟩ := exec_same_result i hl hl rfl fun _ => rfl
  exact ⟨_, h⟩

/-- Before and after a command `j` of another lane, which does not write a context that `i` touches, `i` gives the same
result. -/
theorem exec_same_result_after_other_lane {i j : Instr} {s c : State} {p q : Nat} {din din' : Label} {ln : Lane}
    (hqp : q ≠ p) (hl : s.lanes[p]? = some ln) (hji : ¬(j.writesContext ∧ i.touchesContext))
    (hc : exec j (s.onPort q din') = .next c) :
    ∃ r, exec i (s.onPort p din) = .next ((s.onPort p din).conclude ln r) ∧
      exec i (c.onPort p din) = .next ((c.onPort p din).conclude ln r) := by
  have hlc : (c.onPort p din).Issuing ln := (exec_other_lane hqp hc).trans hl
  refine exec_same_result i hl hlc rfl fun hi => ?_
  have hj : ¬j.writesContext := fun hj => hji ⟨hj, hi⟩
  exact (exec_ctx_of_not_writesContext hj hc).symm

/-- A command `j` that does not write the context, run before or after another command's end `r`, leaves that end's
context. -/
theorem ctx_eq_of_not_writesContext {j : Instr} {s b c : State} {p q : Nat} {din din' : Label} {ln : Lane}
    {r : Except ErrCode Effect} (hj : ¬j.writesContext) (hc : exec j (s.onPort q din') = .next c)
    (hb : exec j (((s.onPort p din).conclude ln r).onPort q din') = .next b) :
    b.ctx = ((c.onPort p din).conclude ln r).ctx := by
  have hafter := exec_ctx_of_not_writesContext hj hb
  have hbefore := exec_ctx_of_not_writesContext hj hc
  calc b.ctx
    _ = ((s.onPort p din).conclude ln r).ctx := hafter
    _ = ((c.onPort p din).conclude ln r).ctx :=
      State.conclude_ctx_congr (s := s.onPort p din) (s' := c.onPort p din) hbefore.symm ln r

/-! ## `MKC` -/

theorem exec_mkc_of_ctx_none {s : State} {ln : Lane} (hl : s.Issuing ln) (hctx : s.ctx = none) :
    exec .mkc s = .next (s.finish ln (.setContext (some (keyExpand s.din)))) :=
  perform_ok hl (by rw [hctx])

theorem exec_mkc_of_ctx_some {s : State} {ln : Lane} {rk : Schedule} (hl : s.Issuing ln) (hctx : s.ctx = some rk) :
    exec .mkc s = .next (s.putLane (ln.takeFault .errCtxlocked)) :=
  perform_error hl (by rw [hctx])

end Sys2Proof.Machine

namespace Sys2Proof.Proofs

open Sys2Proof.Machine

/-- Settles O45: each command gives the same result in either order, the two results write different lanes, and at most
one of them writes the context. -/
theorem commandsOfDifferentLanesCommute : Obligations.CommandsOfDifferentLanesCommute := by
  intro i j s p q din din' hpq hp hq hij hji
  have hlp : s.lanes[p]? = some s.lanes[p] := List.getElem?_eq_getElem hp
  have hlq : s.lanes[q]? = some s.lanes[q] := List.getElem?_eq_getElem hq
  obtain ⟨c, hc⟩ := exec_of_issuing j (s := s.onPort q din') hlq
  obtain ⟨ri, ha, hd⟩ := exec_same_result_after_other_lane (din := din) hpq.symm hlp hji hc
  obtain ⟨rj, hc', hb⟩ := exec_same_result_after_other_lane (din := din') hpq hlq hij ha
  obtain rfl : c = (s.onPort q din').conclude s.lanes[q] rj := by
    rw [hc'] at hc
    cases hc
    rfl
  refine ⟨_, _, _, _, ha, hb, hc, hd, ?ctx, ?lanes, by simp⟩
  case ctx =>
    by_cases hi : i.writesContext
    · have hj : ¬j.writesContext := fun hj => hij ⟨hi, hj.touchesContext⟩
      exact ctx_eq_of_not_writesContext hj hc hb
    · exact (ctx_eq_of_not_writesContext hi ha hd).symm
  case lanes =>
    obtain ⟨lnP, hP⟩ := State.conclude_lanes s.lanes[p] ri
    obtain ⟨lnQ, hQ⟩ := State.conclude_lanes s.lanes[q] rj
    simp only [hP, hQ, State.onPort_lanes, State.onPort_lane]
    exact List.set_comm lnP lnQ hpq

/-- Settles O46: the first `MKC` finds no context, the second the first's. -/
theorem oneMkcWinsTheRace : Obligations.OneMkcWinsTheRace := by
  intro s p q key key' hctx hpq hp hq
  have hlp : s.lanes[p]? = some s.lanes[p] := List.getElem?_eq_getElem hp
  have hlq : s.lanes[q]? = some s.lanes[q] := List.getElem?_eq_getElem hq
  obtain ⟨a, ha, hactx, halanes⟩ : ∃ a, exec .mkc (s.onPort p key) = .next a ∧ a.ctx = some (keyExpand key) ∧
      a.lanes = s.lanes.set p (s.lanes[p].respond .ok 0) := ⟨_, exec_mkc_of_ctx_none hlp hctx, rfl, rfl⟩
  have hlq' : (a.onPort q key').Issuing s.lanes[q] := (exec_other_lane hpq ha).trans hlq
  have hb := exec_mkc_of_ctx_some hlq' hactx
  refine ⟨a, _, s.lanes[p].respond .ok 0, s.lanes[q].takeFault .errCtxlocked, ha, hb, hactx, ?_, rfl, ?_, rfl⟩
  · simp [halanes, hp, hpq.symm]
  · simp [halanes, hq]

/-- Settles O47, by whether the command faults or ends with `OK`. -/
theorem commandWritesOnlyItsDestination : Obligations.CommandWritesOnlyItsDestination := by
  intro i s t h
  have hkeep : ¬i.writesContext → t.ctx = s.ctx := fun hi => exec_ctx_of_not_writesContext hi h
  obtain ⟨ln, hl, ⟨c, rfl⟩ | ⟨e, he, rfl⟩⟩ := exec_next h
  · exact ⟨ln, ln.takeFault c, _, hl, rfl, rfl, rfl, fun _ _ => rfl, fun hok => (nomatch hok), hkeep, rfl, rfl, rfl⟩
  · obtain ⟨d, hr⟩ := e.onLane_response ln
    exact ⟨ln, e.onLane ln, _, hl, s.finish_lanes ln e, hr, e.onLane_laneId ln,
      fun _ hx => he.onLane_label_of_ne_dest ln hx, fun _ => e.onLane_firstErr ln, hkeep, s.finish_lane ln e,
      s.finish_din ln e, s.finish_pending ln e⟩

end Sys2Proof.Proofs
end

section
/-! PROOFS. The family of 30_encoding.md: the decoder and the encoder are inverse to each other (R51 to R57), the
decoder agrees with the opcode table (R53), a step runs the decoded command (R50, R63), and what crosses the data ports
(R59, R60). -/

namespace Sys2Proof

/-! ## What the decoder accepts (R55) -/

/-- The command of `i`'s row of the table whose operands are the fields `f` (R52 to R54). -/
def Instr.withOperands (i : Instr) (f : Fields) : Instr :=
  match i with
  | .mkc => .mkc
  | .ctxclr => .ctxclr
  | .rdrk _ => .rdrk f.idx.toFin
  | .enc _ _ => .enc f.rd.toFin f.ra.toFin
  | .ldl _ => .ldl f.rd.toFin
  | .stl _ => .stl f.ra.toFin
  | .xor _ _ _ => .xor f.rd.toFin f.ra.toFin f.rb.toFin
  | .dbl _ _ => .dbl f.rd.toFin f.ra.toFin
  | .quad _ _ => .quad f.rd.toFin f.ra.toFin
  | .ctwk _ _ _ _ => .ctwk f.rd.toFin f.ra.toFin f.rb.toFin f.imm32
  | .gate _ _ _ _ _ => .gate f.rd.toFin f.ra.toFin f.rb.toFin f.rc.toFin f.imm32
  | .rdst => .rdst

@[simp] theorem mnemonicOf_withOperands (i : Instr) (f : Fields) : mnemonicOf (i.withOperands f) = mnemonicOf i := by
  cases i <;> rfl

@[simp] theorem Instr.withOperands_instrFields (i : Instr) : i.withOperands (instrFields i) = i := by
  cases i <;> rfl

/-- Of the commands only `RDRK` restricts an operand (R65). -/
theorem Instr.wellFormed_withOperands (i : Instr) (f : Fields) :
    (i.withOperands f).wellFormed = true ↔ (mnemonicOf i = "RDRK" → f.idx.toNat ≤ 14) := by
  cases i <;> simp [Instr.withOperands, Instr.wellFormed, mnemonicOf]

/-- `f.InClass op c`: the fields `f` have opcode `op`, and every field outside the class `c` is 0 (R55 steps 2 to 4). -/
def Fields.InClass (f : Fields) (op : BitVec 8) (c : FormatClass) : Prop :=
  f.opcode = op ∧ f.zero = 0 ∧ c.unusedZero f = true

theorem instrFields_inClass (i : Instr) : (instrFields i).InClass (opcodeOf i) (classOf i) := by
  rw [← fieldsOf_encode]
  cases i
  case mkc => exact Laws.EncodesInClass.mkc
  case ctxclr => exact Laws.EncodesInClass.ctxclr
  case rdrk => exact Laws.EncodesInClass.rdrk _
  case enc => exact Laws.EncodesInClass.enc _ _
  case ldl => exact Laws.EncodesInClass.ldl _
  case stl => exact Laws.EncodesInClass.stl _
  case xor => exact Laws.EncodesInClass.xor _ _ _
  case dbl => exact Laws.EncodesInClass.dbl _ _
  case quad => exact Laws.EncodesInClass.quad _ _
  case ctwk => exact Laws.EncodesInClass.ctwk _ _ _ _
  case gate => exact Laws.EncodesInClass.gate _ _ _ _ _
  case rdst => exact Laws.EncodesInClass.rdst

/-- Fields in a command's class are those of the command whose operands they give: the others are 0 (R56). -/
theorem Fields.InClass.eq_instrFields {f : Fields} {i : Instr} (h : f.InClass (opcodeOf i) (classOf i)) :
    f = instrFields (i.withOperands f) := by
  obtain ⟨hop, hzero, hunused⟩ := h
  obtain ⟨imm32, opcode, rd, ra, rb, rc, idx, zero⟩ := f
  subst hop hzero
  cases i
  all_goals
    simp only [classOf, FormatClass.unusedZero, Bool.and_eq_true, beq_iff_eq] at hunused
    simp [instrFields, Instr.withOperands, fieldsWith, opcodeOf, hunused]

theorem accept_eq_ok {f : Fields} {c : FormatClass} {i j : Instr} :
    accept f c i = .ok j ↔ f.zero = 0 ∧ c.unusedZero f = true ∧ j = i := by
  unfold accept
  by_cases hzero : f.zero = 0#8
  · by_cases hunused : c.unusedZero f = true <;> simp [hzero, hunused, eq_comm]
  · simp [hzero]

theorem acceptIndexed_eq_ok {f : Fields} {i : Instr} :
    acceptIndexed f = .ok i ↔ accept f .i (.rdrk f.idx.toFin) = .ok i ∧ i.wellFormed = true := by
  unfold acceptIndexed
  cases accept f .i (.rdrk f.idx.toFin) with
  | error e => simp
  | ok j =>
    by_cases hj : j.wellFormed = true
    · simp only [hj, if_true, Except.ok.injEq]
      exact ⟨fun h => ⟨h, h ▸ hj⟩, And.left⟩
    · simp only [hj, if_false, Except.ok.injEq, reduceCtorEq, false_iff]
      exact fun ⟨h, hi⟩ => hj (h ▸ hi)

theorem accept_eq_ok_iff_and_wellFormed {f : Fields} {c : FormatClass} {i j : Instr} (hi : i.wellFormed = true) :
    accept f c i = .ok j ↔ accept f c i = .ok j ∧ j.wellFormed = true := by
  refine ⟨fun h => ⟨h, ?_⟩, And.left⟩
  obtain ⟨-, -, rfl⟩ := accept_eq_ok.mp h
  exact hi

/-- Behind the opcode of `i`, the decoder accepts exactly the well-formed command of `i`'s row. -/
theorem decodeFields_eq_ok_of_opcode {f : Fields} {i j : Instr} (h : f.opcode = opcodeOf i) :
    decodeFields f = .ok j ↔ accept f (classOf i) (i.withOperands f) = .ok j ∧ j.wellFormed = true := by
  rw [decodeFields, h]
  cases i
  case rdrk => exact acceptIndexed_eq_ok
  all_goals exact accept_eq_ok_iff_and_wellFormed rfl

theorem opcode_of_decodeFields {f : Fields} {i : Instr} (h : decodeFields f = .ok i) : f.opcode = opcodeOf i := by
  unfold decodeFields at h
  split at h
  case h_3 hop =>
    obtain ⟨-, -, rfl⟩ := accept_eq_ok.mp (acceptIndexed_eq_ok.mp h).1
    exact hop
  case h_13 => cases h
  all_goals
    obtain ⟨-, -, rfl⟩ := accept_eq_ok.mp h
    assumption

theorem decodeFields_eq_ok {f : Fields} {i : Instr} :
    decodeFields f = .ok i ↔ f = instrFields i ∧ i.wellFormed = true := by
  constructor
  · intro h
    have hop := opcode_of_decodeFields h
    obtain ⟨haccept, hwf⟩ := (decodeFields_eq_ok_of_opcode hop).mp h
    obtain ⟨hzero, hunused, hi⟩ := accept_eq_ok.mp haccept
    have hf : f = instrFields (i.withOperands f) := Fields.InClass.eq_instrFields ⟨hop, hzero, hunused⟩
    rw [← hi] at hf
    exact ⟨hf, hwf⟩
  · rintro ⟨rfl, hwf⟩
    obtain ⟨hop, hzero, hunused⟩ := instrFields_inClass i
    exact (decodeFields_eq_ok_of_opcode hop).mpr
      ⟨accept_eq_ok.mpr ⟨hzero, hunused, i.withOperands_instrFields.symm⟩, hwf⟩

theorem fieldsOf_eq_fieldsOf {v w : CmdWord} : fieldsOf v = fieldsOf w ↔ v = w :=
  ⟨fieldsOf_inj, congrArg fieldsOf⟩

/-- A word decodes to a command exactly when it is the word of that command and the command is well formed. -/
theorem decode_eq_ok {cw : CmdWord} {i : Instr} : decode cw = .ok i ↔ cw = encode i ∧ i.wellFormed = true := by
  rw [decode, decodeFields_eq_ok, ← fieldsOf_encode, fieldsOf_eq_fieldsOf]

theorem opcodeOf_mem (i : Instr) :
    opcodeOf i ∈ [0x01#8, 0x02#8, 0x03#8, 0x04#8, 0x10#8, 0x11#8, 0x12#8, 0x13#8, 0x14#8, 0x15#8, 0x20#8, 0x30#8] := by
  cases i <;> simp [opcodeOf]

/-! ## The opcode table (R53) -/

/-- The fields a word of class `c` is compared in, each with every bit set: all but the class's operands. -/
def FormatClass.maskFields (c : FormatClass) : Fields :=
  let all : Fields := ⟨.allOnes 32, .allOnes 8, .allOnes 3, .allOnes 3, .allOnes 3, .allOnes 3, .allOnes 4, .allOnes 8⟩
  match c with
  | .z     => all
  | .i     => { all with idx := 0 }
  | .d     => { all with rd := 0 }
  | .a     => { all with ra := 0 }
  | .da    => { all with rd := 0, ra := 0 }
  | .dab   => { all with rd := 0, ra := 0, rb := 0 }
  | .dabt  => { all with rd := 0, ra := 0, rb := 0, imm32 := 0 }
  | .dabct => { all with rd := 0, ra := 0, rb := 0, rc := 0, imm32 := 0 }

/-- The table row of a command, from its opcode and its class. -/
def rowOf (i : Instr) : TableRow where
  mnemonic := mnemonicOf i
  matchW   := packFields (fieldsWith (opcodeOf i))
  mask     := packFields (classOf i).maskFields

theorem opcodeTable_eq_map_rowOf :
    opcodeTable = [Instr.mkc, .ctxclr, .rdrk 0, .enc 0 0, .ldl 0, .stl 0, .xor 0 0 0, .dbl 0 0, .quad 0 0,
      .ctwk 0 0 0 0, .gate 0 0 0 0 0, .rdst].map rowOf := by
  decide

theorem exists_eq_rowOf {row : TableRow} (h : row ∈ opcodeTable) : ∃ i, row = rowOf i := by
  rw [opcodeTable_eq_map_rowOf] at h
  obtain ⟨i, -, rfl⟩ := List.mem_map.mp h
  exact ⟨i, rfl⟩

theorem rowOf_mem_opcodeTable (i : Instr) : rowOf i ∈ opcodeTable := by
  cases i <;> simp only [rowOf, mnemonicOf, opcodeOf, classOf] <;> decide

theorem eq_of_mnemonic_eq : ∀ row ∈ opcodeTable, ∀ row' ∈ opcodeTable, row.mnemonic = row'.mnemonic → row = row' := by
  decide

theorem eq_of_matchW_eq : ∀ row ∈ opcodeTable, ∀ row' ∈ opcodeTable, row.matchW = row'.matchW → row = row' := by
  decide

/-- The bitwise and of two words, field by field. -/
def Fields.and (f g : Fields) : Fields :=
  ⟨f.imm32 &&& g.imm32, f.opcode &&& g.opcode, f.rd &&& g.rd, f.ra &&& g.ra, f.rb &&& g.rb, f.rc &&& g.rc,
    f.idx &&& g.idx, f.zero &&& g.zero⟩

theorem fieldsOf_and (v w : CmdWord) : fieldsOf (v &&& w) = (fieldsOf v).and (fieldsOf w) := by
  simp only [fieldsOf, Fields.and, BitVec.extractLsb'_and]

/-- Comparing a word under the mask of a class is the decoder's check of that class. -/
theorem Fields.and_maskFields_eq {f : Fields} {op : BitVec 8} {c : FormatClass} :
    f.and c.maskFields = fieldsWith op ↔ f.InClass op c := by
  cases c <;>
    simp [-BitVec.reduceAllOnes, Fields.and, FormatClass.maskFields, fieldsWith, Fields.InClass,
      FormatClass.unusedZero, and_assoc, and_comm, and_left_comm]

theorem spells_rowOf {i : Instr} {cw : CmdWord} :
    (rowOf i).spells cw = true ↔
      (fieldsOf cw).InClass (opcodeOf i) (classOf i) ∧ (i.withOperands (fieldsOf cw)).wellFormed = true := by
  have hmask : cw &&& (rowOf i).mask = (rowOf i).matchW ↔ (fieldsOf cw).InClass (opcodeOf i) (classOf i) :=
    calc cw &&& (rowOf i).mask = (rowOf i).matchW
      _ ↔ fieldsOf (cw &&& (rowOf i).mask) = fieldsOf (rowOf i).matchW := fieldsOf_eq_fieldsOf.symm
      _ ↔ (fieldsOf cw).and (classOf i).maskFields = fieldsWith (opcodeOf i) := by
        simp only [rowOf, fieldsOf_and, fieldsOf_packFields]
      _ ↔ (fieldsOf cw).InClass (opcodeOf i) (classOf i) := Fields.and_maskFields_eq
  rw [Instr.wellFormed_withOperands, ← hmask]
  simp [TableRow.spells, rowOf, fieldsOf, imp_iff_not_or]

theorem spells_of_decode {cw : CmdWord} {i : Instr} (h : decode cw = .ok i) : (rowOf i).spells cw = true := by
  obtain ⟨rfl, hwf⟩ := decode_eq_ok.mp h
  rw [spells_rowOf, fieldsOf_encode, Instr.withOperands_instrFields]
  exact ⟨instrFields_inClass i, hwf⟩

theorem decode_of_spells {cw : CmdWord} {i : Instr} (h : (rowOf i).spells cw = true) :
    decode cw = .ok (i.withOperands (fieldsOf cw)) := by
  obtain ⟨hclass, hwf⟩ := spells_rowOf.mp h
  exact decodeFields_eq_ok.mpr ⟨hclass.eq_instrFields, hwf⟩

end Sys2Proof

namespace Sys2Proof.Proofs

open Sys2Proof.Machine

/-- Settles O2: the encoder's fields are read back, and they stand in the command's class. -/
theorem decodeOfEncode : Obligations.DecodeOfEncode :=
  fun _ hwf => decode_eq_ok.mpr ⟨rfl, hwf⟩

/-- Settles O3: fields in a class are those the encoder packs. -/
theorem encodeOfDecode : Obligations.EncodeOfDecode := by
  intro cw i h
  obtain ⟨rfl, hwf⟩ := decode_eq_ok.mp h
  exact ⟨rfl, hwf⟩

/-- Settles O4: a word spells the row of the command it decodes to, and a word that spells a row decodes to the command
its fields name there; two rows a word spells have its opcode. -/
theorem wordSpellsTableRow : Obligations.WordSpellsTableRow := by
  refine ⟨fun row hrow cw => ?agrees, fun row hrow row' hrow' cw h h' => ?disjoint⟩ <;>
    obtain ⟨j, rfl⟩ := exists_eq_rowOf hrow
  case agrees =>
    constructor
    · rintro ⟨i, hdec, hmn⟩
      have hij : rowOf i = rowOf j := eq_of_mnemonic_eq _ (rowOf_mem_opcodeTable i) _ hrow hmn
      rw [← hij]
      exact spells_of_decode hdec
    · intro h
      exact ⟨_, decode_of_spells h, mnemonicOf_withOperands j _⟩
  case disjoint =>
    obtain ⟨j', rfl⟩ := exists_eq_rowOf hrow'
    obtain ⟨⟨hop, -⟩, -⟩ := spells_rowOf.mp h
    obtain ⟨⟨hop', -⟩, -⟩ := spells_rowOf.mp h'
    have hmatch : opcodeOf j = opcodeOf j' := hop.symm.trans hop'
    exact eq_of_matchW_eq _ hrow _ hrow' (congrArg (fun op => packFields (fieldsWith op)) hmatch)

/-- Settles O1: each word is the one encoding of the command it is listed with. -/
theorem workedEncodingsDecode : Obligations.WorkedEncodingsDecode := by
  unfold Obligations.WorkedEncodingsDecode
  simp only [decode_eq_ok]
  decide

/-- Settles O9: a word that decodes carries the opcode of its command. -/
theorem reservedOpcodeRejected : Obligations.ReservedOpcodeRejected := by
  intro cw hreserved
  cases hd : decode cw with
  | error e => exact ⟨e, rfl⟩
  | ok i =>
    have hop : cw.extractLsb' 24 8 = opcodeOf i := opcode_of_decodeFields hd
    rw [hop] at hreserved
    exact absurd (opcodeOf_mem i) hreserved

/-- Settles O6: the step rule of a presented command. -/
theorem stepRunsDecodedCommand : Obligations.StepRunsDecodedCommand :=
  fun _ _ _ _ _ _ hp hd => step_command hp hd

end Sys2Proof.Proofs

namespace Sys2Proof.Machine

/-! ## `LDL` and the data ports (R59, R60) -/

theorem exec_ldl_of_issuing {s : State} {ln : Lane} (rd : LReg) (hl : s.Issuing ln) :
    exec (.ldl rd) s = .next (s.loaded ln rd s.din) :=
  perform_ok (body := fun _ => .ok (.setLabel rd s.din)) hl rfl

/-- DOUT of a command with this effect. -/
def Effect.dout : Effect → Label
  | .setContext _ => 0
  | .setLabel _ _ => 0
  | .drive d => d

theorem Effect.response_onLane (ln : Lane) (e : Effect) : (e.onLane ln).response = some ⟨.ok, e.dout⟩ := by
  cases e <;> rfl

/-- A lane that took a fault answers its code with DOUT = 0; one on which an effect happened answers `OK` with what the
effect drives. -/
theorem State.response_of_ends {s t : State} {ln ln' : Lane} {r : Response} {P : Effect → Prop} (hl : s.Issuing ln)
    (ht : (∃ c, t = s.putLane (ln.takeFault c)) ∨ ∃ e, P e ∧ t = s.finish ln e)
    (hl' : t.lanes[s.lane]? = some ln') (hr : ln'.response = some r) :
    (∃ c, r = ⟨.err c, 0⟩) ∨ ∃ e, P e ∧ r = ⟨.ok, e.dout⟩ := by
  have hlt : s.lane < s.lanes.length := (List.getElem?_eq_some_iff.mp hl).1
  obtain ⟨c, rfl⟩ | ⟨e, he, rfl⟩ := ht
  · rw [State.putLane_lanes, List.getElem?_set_self hlt] at hl'
    cases hl'
    cases hr
    exact .inl ⟨c, rfl⟩
  · rw [State.finish_lanes, List.getElem?_set_self hlt] at hl'
    cases hl'
    rw [Effect.response_onLane] at hr
    cases hr
    exact .inr ⟨e, he, rfl⟩

theorem exec_response {i : Instr} {s t : State} {ln ln' : Lane} {r : Response} (h : exec i s = .next t)
    (hl : s.Issuing ln) (hl' : t.lanes[s.lane]? = some ln') (hr : ln'.response = some r) :
    (∃ c, r = ⟨.err c, 0⟩) ∨ ∃ e, EffectOf i s e ∧ r = ⟨.ok, e.dout⟩ := by
  obtain ⟨ln₀, hl₀, ht⟩ := exec_next h
  obtain rfl : ln₀ = ln := Option.some.inj (hl₀.symm.trans hl)
  exact State.response_of_ends hl ht hl' hr

theorem perform_response_ok {s t : State} {ln ln' : Lane} {body : Lane → Except ErrCode Effect} {d : Label}
    (h : perform s body = .next t) (hl : s.Issuing ln) (hl' : t.lanes[s.lane]? = some ln')
    (hr : ln'.response = some ⟨.ok, d⟩) : ∃ e, body ln = .ok e ∧ e.dout = d := by
  obtain ⟨ln₀, hl₀, ht⟩ := perform_next.mp h
  obtain rfl : ln₀ = ln := Option.some.inj (hl₀.symm.trans hl)
  have ht' := ht.imp_left fun ⟨c, _, hc⟩ => Exists.intro c hc
  obtain ⟨c, hc⟩ | ⟨e, he, hd⟩ := State.response_of_ends hl ht' hl' hr
  · cases hc
  · cases hd
    exact ⟨e, he, rfl⟩

theorem EffectOf.dout_eq_zero {i : Instr} {s : State} {e : Effect} (h : EffectOf i s e) (hstl : ∀ ra, i ≠ .stl ra)
    (hrdrk : ∀ idx, i ≠ .rdrk idx) (hrdst : i ≠ .rdst) : e.dout = 0 := by
  cases i
  case mkc => obtain ⟨-, rfl⟩ := h; rfl
  case ctxclr => cases h; rfl
  case stl ra => exact absurd rfl (hstl ra)
  case rdrk idx => exact absurd rfl (hrdrk idx)
  case rdst => exact absurd rfl hrdst
  all_goals obtain ⟨v, rfl⟩ := h; rfl

theorem Lane.readLabel_eq_ok {ln : Lane} {r : LReg} {v : Label} : ln.readLabel r = .ok v ↔ ln.labels[r] = some v := by
  obtain ⟨w, hl, hw⟩ | ⟨hl, he⟩ := ln.readLabel_cases r <;> simp [*]

theorem State.readContext_eq_ok {s : State} {rk : Schedule} : s.readContext = .ok rk ↔ s.ctx = some rk := by
  obtain ⟨rk', hc, hk⟩ | ⟨hc, he⟩ := s.readContext_cases <;> simp [*]

section Reads

variable {s t : State} {ln ln' : Lane} {d : Label}

theorem stl_response_ok {ra : LReg} (h : exec (.stl ra) s = .next t) (hl : s.Issuing ln)
    (hl' : t.lanes[s.lane]? = some ln') (hr : ln'.response = some ⟨.ok, d⟩) : ln.labels[ra] = some d := by
  obtain ⟨e, he, rfl⟩ := perform_response_ok h hl hl' hr
  simp only [except_bind_eq_ok, except_pure_eq_ok] at he
  obtain ⟨a, ha, rfl⟩ := he
  exact Lane.readLabel_eq_ok.mp ha

theorem rdrk_response_ok {idx : RkIdx} (h : exec (.rdrk idx) s = .next t) (hl : s.Issuing ln)
    (hl' : t.lanes[s.lane]? = some ln') (hr : ln'.response = some ⟨.ok, d⟩) :
    ∃ (rk : Schedule) (_ : idx.val < 15), s.ctx = some rk ∧ rk[idx.val] = d := by
  obtain ⟨e, he, rfl⟩ := perform_response_ok h hl hl' hr
  split at he
  next hidx =>
    simp only [except_bind_eq_ok, except_pure_eq_ok] at he
    obtain ⟨rk, hrk, rfl⟩ := he
    exact ⟨rk, hidx, State.readContext_eq_ok.mp hrk, rfl⟩
  next => cases he

theorem rdst_response_ok (h : exec .rdst s = .next t) (hl : s.Issuing ln)
    (hl' : t.lanes[s.lane]? = some ln') (hr : ln'.response = some ⟨.ok, d⟩) : d = statusWord s ln := by
  obtain ⟨e, he, rfl⟩ := perform_response_ok (body := fun ln => .ok (.drive (statusWord s ln))) h hl hl' hr
  cases he
  rfl

end Reads

/-- A command other than `MKC` and `LDL` makes the same checks and computation whatever DIN is (R60). -/
theorem exec_same_body_of_ne_mkc_ldl {i : Instr} (hmkc : i ≠ .mkc) (hldl : ∀ rd, i ≠ .ldl rd) (s : State)
    (din : Label) :
    ∃ body, exec i s = perform s body ∧ exec i { s with din := din } = perform { s with din := din } body := by
  cases i
  case mkc => exact absurd rfl hmkc
  case ldl rd => exact absurd rfl (hldl rd)
  case ctxclr => exact ⟨fun _ => .ok (.setContext none), rfl, rfl⟩
  case rdst => exact ⟨fun ln => .ok (.drive (statusWord s ln)), rfl, rfl⟩
  all_goals exact ⟨_, rfl, rfl⟩

theorem State.conclude_with_din (s : State) (ln : Lane) (r : Except ErrCode Effect) (din : Label) :
    State.conclude { s with din := din } ln r = { s.conclude ln r with din := din } := by
  rcases r with c | e
  · rfl
  · cases e <;> rfl

end Sys2Proof.Machine

namespace Sys2Proof.Proofs

open Sys2Proof.Machine

/-- Settles O22: the word of `LDZ` is that of `LDL`, and its DIN is 0. -/
theorem ldzLoadsZero : Obligations.LdzLoadsZero := by
  intro s p rd rest ln hp hl
  rw [step_command hp (decodeOfEncode (.ldl rd) rfl)]
  exact exec_ldl_of_issuing rd hl

/-- Settles O48, by whether the command answers a fault or `OK` and, where `OK`, by which of the reads it is. -/
theorem doutOnlyFromReads : Obligations.DoutOnlyFromReads := by
  intro i s t ln ln' r h hl hl' hr
  obtain ⟨c, rfl⟩ | ⟨e, he, rfl⟩ := exec_response h hl hl' hr
  · exact ⟨fun _ => rfl, fun hok => nomatch hok⟩
  · refine ⟨fun hne => absurd rfl hne, fun _ => ⟨?stl, ?rdrk, ?rdst, he.dout_eq_zero⟩⟩
    case stl => rintro ra rfl; exact stl_response_ok h hl hl' hr
    case rdrk => rintro idx rfl; exact rdrk_response_ok h hl hl' hr
    case rdst => rintro rfl; exact rdst_response_ok h hl hl' hr

/-- Settles O49: `MKC` and `LDL` end with DIN in the context or the register; every other command runs the same body
with either DIN, and its end leaves DIN alone. -/
theorem dinReadByMkcAndLdlOnly : Obligations.DinReadByMkcAndLdlOnly := by
  refine ⟨fun s ln din hl => ⟨fun hctx => ?mkc, fun rd => exec_ldl_of_issuing rd hl⟩,
    fun i s t din hmkc hldl h => ?others⟩
  case mkc => exact ⟨_, keyExpand din, exec_mkc_of_ctx_none hl hctx, rfl, rfl⟩
  case others =>
    obtain ⟨body, hs, hs'⟩ := exec_same_body_of_ne_mkc_ldl hmkc hldl s din
    obtain ⟨ln, hl, -⟩ := exec_next h
    rw [hs, perform_of_issuing body hl] at h
    cases h
    rw [hs', perform_of_issuing (s := { s with din := din }) body hl, State.conclude_with_din]

end Sys2Proof.Proofs
end

section
/-! PROOFS. The family of 40_cipher_context.md: the S-box (R78), one key step (R75 to R77), the bytes of a round (R79 to
R85), the fourteen rounds and why they can be undone (R86, R89), and the commands `MKC`, `CTXCLR`, `RDRK` and `ENC`
(R71 to R74). -/

namespace Sys2Proof.Machine

/-! ## The S-box (R78) -/

/-- The inverse of R78's affine map. -/
def invSboxAffine (b : Byte) : Byte :=
  rotl8 b 1 ^^^ rotl8 b 3 ^^^ rotl8 b 6 ^^^ 0x05

theorem sboxAffine_invSboxAffine : ∀ b : Byte, sboxAffine (invSboxAffine b) = b := by
  decide +kernel

/-- The table holds the inverses in GF(2^8) under the affine map. The other facts about `ginv` go through this one, so
that its 254th powers are computed once. -/
theorem ginv_eq_invSboxAffine_sbox : ∀ a : Byte, ginv a = invSboxAffine (sbox a) := by
  decide +kernel

theorem sbox_eq_sboxAffine_ginv (a : Byte) : sbox a = sboxAffine (ginv a) := by
  rw [ginv_eq_invSboxAffine_sbox, sboxAffine_invSboxAffine]

theorem gmul_invSboxAffine_sbox : ∀ a : Byte, a ≠ 0 → gmul a (invSboxAffine (sbox a)) = 1 := by
  decide +kernel

theorem gmul_ginv (a : Byte) (h : a ≠ 0) : gmul a (ginv a) = 1 := by
  rw [ginv_eq_invSboxAffine_sbox, gmul_invSboxAffine_sbox a h]

theorem ginv_zero : ginv 0 = 0 := by
  rw [ginv_eq_invSboxAffine_sbox]
  decide

/-- The table of the inverse S-box, laid out as `sboxRows` is. -/
def invSboxRows : List Label := [
  0x52096AD53036A538BF40A39E81F3D7FB,
  0x7CE339829B2FFF87348E4344C4DEE9CB,
  0x547B9432A6C2233DEE4C950B42FAC34E,
  0x082EA16628D924B2765BA2496D8BD125,
  0x72F8F66486689816D4A45CCC5D65B692,
  0x6C704850FDEDB9DA5E154657A78D9D84,
  0x90D8AB008CBCD30AF7E45805B8B34506,
  0xD02C1E8FCA3F0F02C1AFBD0301138A6B,
  0x3A9111414F67DCEA97F2CFCEF0B4E673,
  0x96AC7422E7AD3585E2F937E81C75DF6E,
  0x47F11A711D29C5896FB7620EAA18BE1B,
  0xFC563E4BC6D279209ADBC0FE78CD5AF4,
  0x1FDDA8338807C731B11210592780EC5F,
  0x60517FA919B54A0D2DE57A9F93C99CEF,
  0xA0E03B4DAE2AF5B0C8EBBB3C83539961,
  0x172B047EBA77D626E169146355210C7D]

def invSbox (b : Byte) : Byte :=
  blockByte (invSboxRows.getD (b.toNat / 16) 0) (b.toNat % 16)

theorem invSbox_sbox : ∀ a : Byte, invSbox (sbox a) = a := by
  decide +kernel

theorem sbox_injective : Function.Injective sbox :=
  Function.LeftInverse.injective invSbox_sbox

/-! ## The key schedule (R75 to R77) -/

theorem word32_three_eq_bytes (x : Label) :
    word32 x 3 = blockByte x 12 ++ blockByte x 13 ++ blockByte x 14 ++ blockByte x 15 := by
  unfold word32 blockByte
  simp (disch := omega) only [-Nat.reduceAdd, BitVec.extractLsb'_append_extractLsb'_eq_extractLsb']

theorem rotWord_append (b0 b1 b2 b3 : Byte) : rotWord (b0 ++ b1 ++ b2 ++ b3) = b1 ++ b2 ++ b3 ++ b0 := by
  refine BitVec.eq_of_getLsbD_eq fun i hi => ?_
  simp only [-Nat.reduceAdd, rotWord, BitVec.getLsbD_or, BitVec.getLsbD_shiftLeft, BitVec.getLsbD_ushiftRight,
    BitVec.getLsbD_append]
  interval_cases i <;> simp

theorem subWord_append (b0 b1 b2 b3 : Byte) :
    subWord (b0 ++ b1 ++ b2 ++ b3) = sbox b0 ++ sbox b1 ++ sbox b2 ++ sbox b3 := by
  unfold subWord
  simp (disch := omega) only [-Nat.reduceAdd, -Nat.reduceSub, BitVec.extractLsb'_append_eq_of_add_le,
    BitVec.extractLsb'_append_eq_of_le]
  simp

/-- The round constant goes into the most significant byte of a word (R76). -/
theorem append_xor_setWidth_shiftLeft (b0 b1 b2 b3 rc : Byte) :
    (b0 ++ b1 ++ b2 ++ b3) ^^^ (rc.setWidth 32 <<< 24) = (b0 ^^^ rc) ++ b1 ++ b2 ++ b3 := by
  refine BitVec.eq_of_getLsbD_eq fun i hi => ?_
  simp only [-Nat.reduceAdd, BitVec.getLsbD_xor, BitVec.getLsbD_shiftLeft, BitVec.getLsbD_setWidth,
    BitVec.getLsbD_append]
  interval_cases i <;> simp

/-- What is added to the first word of a round key, byte by byte (R76, R77). -/
theorem keyStep_temp_eq_bytes (prev : Label) (rc : Byte) :
    subWord (rotWord (word32 prev 3)) ^^^ (rc.setWidth 32 <<< 24) =
      (sbox (blockByte prev 13) ^^^ rc) ++ sbox (blockByte prev 14) ++ sbox (blockByte prev 15) ++
        sbox (blockByte prev 12) := by
  rw [word32_three_eq_bytes, rotWord_append, subWord_append, append_xor_setWidth_shiftLeft]

theorem word32_keyStep_zero (prev : Label) (rc : Byte) :
    word32 (keyStep prev rc) 0 =
      word32 prev 0 ^^^ (subWord (rotWord (word32 prev 3)) ^^^ (rc.setWidth 32 <<< 24)) := by
  simp only [keyStep, word32_append]

theorem word32_keyStep_succ (prev : Label) (rc : Byte) (j : Nat) (h : j < 3) :
    word32 (keyStep prev rc) (j + 1) = word32 prev (j + 1) ^^^ word32 (keyStep prev rc) j := by
  interval_cases j <;> simp only [keyStep, Nat.reduceAdd, word32_append]

theorem getElem_keyExpand (key : Label) (i : Nat) (h : i < 15) : (keyExpand key)[i] = roundKey key i := by
  interval_cases i <;> rfl

theorem getElem_keyExpand_succ (key : Label) (i : Nat) (h : i < 14) :
    (keyExpand key)[i + 1] = keyStep (keyExpand key)[i] (rcon (i + 1)) := by
  rw [getElem_keyExpand, getElem_keyExpand, roundKey]

/-! ## The bytes of a round (R79 to R85) -/

@[simp] theorem getElem_blockOfLabel (x : Label) (i : Nat) (h : i < 16) : (blockOfLabel x)[i] = blockByte x i :=
  getElem_buildBlock _ i h

@[simp] theorem getElem_subBytes (b : Block) (i : Nat) (h : i < 16) : (subBytes b)[i] = sbox b[i] :=
  getElem_buildBlock _ i h

theorem getElem_shiftRows (b : Block) (r c : Nat) (hr : r < 4) (hc : c < 4) :
    (shiftRows b)[r + 4 * c] = b[r + 4 * ((c + r) % 4)] := by
  have hrow : (r + 4 * c) % 4 = r := by omega
  have hcol : (r + 4 * c) / 4 = c := by omega
  simp only [shiftRows, getElem_buildBlock, hrow, hcol]

theorem getElem_mixColumns (b : Block) (r c : Nat) (hr : r < 4) (hc : c < 4) :
    (mixColumns b)[r + 4 * c] = mixRow r b[0 + 4 * c] b[1 + 4 * c] b[2 + 4 * c] b[3 + 4 * c] := by
  have hrow : (r + 4 * c) % 4 = r := by omega
  have hcol : (r + 4 * c) / 4 = c := by omega
  simp only [mixColumns, getElem_buildBlock, hrow, hcol, Nat.zero_add, Nat.add_comm (4 * c)]

/-- A block after `SubBytes` and `ShiftRows`, by row and column. -/
theorem getElem_shiftRows_subBytes (x : Label) (r c : Nat) (hr : r < 4) (hc : c < 4) :
    (shiftRows (subBytes (blockOfLabel x)))[r + 4 * c] = sbox (blockByte x (r + 4 * ((c + r) % 4))) := by
  rw [getElem_shiftRows _ r c hr hc, getElem_subBytes, getElem_blockOfLabel]

theorem blockByte_addRoundKey_labelOfBlock (b : Block) (rk : Label) (i : Nat) (h : i < 16) :
    blockByte (addRoundKey (labelOfBlock b) rk) i = b[i] ^^^ blockByte rk i := by
  rw [addRoundKey, blockByte_xor, blockByte_labelOfBlock]

theorem blockByte_finalRound (x rk : Label) (r c : Nat) (hr : r < 4) (hc : c < 4) :
    blockByte (finalRound x rk) (r + 4 * c) =
      sbox (blockByte x (r + 4 * ((c + r) % 4))) ^^^ blockByte rk (r + 4 * c) := by
  rw [finalRound, blockByte_addRoundKey_labelOfBlock _ _ _ (by omega), getElem_shiftRows_subBytes x r c hr hc]

/-- A byte of a full round is its row of `MixColumns` on the substituted, shifted column, and the round key's byte. -/
theorem blockByte_fullRound {x : Label} {c : Nat} {a : Nat → Byte} (rk : Label) (r : Nat) (hr : r < 4) (hc : c < 4)
    (ha : ∀ r < 4, a r = sbox (blockByte x (r + 4 * ((c + r) % 4)))) :
    blockByte (fullRound x rk) (r + 4 * c) = mixRow r (a 0) (a 1) (a 2) (a 3) ^^^ blockByte rk (r + 4 * c) := by
  have hcol (q : Nat) (hq : q < 4) : (shiftRows (subBytes (blockOfLabel x)))[q + 4 * c] = a q :=
    (getElem_shiftRows_subBytes x q c hq hc).trans (ha q hq).symm
  rw [fullRound, blockByte_addRoundKey_labelOfBlock _ _ _ (by omega), getElem_mixColumns _ r c hr hc,
    hcol 0 (by decide), hcol 1 (by decide), hcol 2 (by decide), hcol 3 (by decide)]

/-! ## The fourteen rounds (R86) -/

theorem length_middleKeys (rk : Schedule) : (middleKeys rk).length = 13 := by
  simp [middleKeys]

theorem getElem_middleKeys (rk : Schedule) (i : Nat) (h : i < (middleKeys rk).length) :
    (middleKeys rk)[i] = rk[i + 1]'(by rw [length_middleKeys] at h; omega) := by
  simp [middleKeys]

/-- A sequence in which each value is `f` of the one before and the next key is the left fold of `f` over the keys. -/
theorem foldl_eq_of_succ {α β : Type} (f : β → α → β) (keys : List α) (st : Nat → β)
    (h : ∀ (i : Nat) (_ : i < keys.length), st (i + 1) = f (st i) keys[i]) :
    keys.foldl f (st 0) = st keys.length := by
  induction keys generalizing st with
  | nil => rfl
  | cons k keys ih =>
    have h0 : st 1 = f (st 0) k := h 0 (by simp)
    have htail := ih (fun i => st (i + 1)) fun i hi => h (i + 1) (by simpa using hi)
    rw [List.foldl_cons, ← h0]
    exact htail

/-! ## Every step of a round is injective (R89) -/

theorem subBytes_injective : Function.Injective subBytes := by
  intro b b' h
  ext i hi : 1
  have hbyte : (subBytes b)[i] = (subBytes b')[i] := by rw [h]
  rw [getElem_subBytes, getElem_subBytes] at hbyte
  exact sbox_injective hbyte

/-- Every position of a block is one `ShiftRows` reads. -/
theorem exists_shiftRows_source : ∀ i < 16, ∃ r < 4, ∃ c < 4, r + 4 * ((c + r) % 4) = i := by
  decide

theorem shiftRows_injective : Function.Injective shiftRows := by
  intro b b' h
  ext i hi : 1
  obtain ⟨r, hr, c, hc, rfl⟩ := exists_shiftRows_source i hi
  rw [← getElem_shiftRows b r c hr hc, ← getElem_shiftRows b' r c hr hc]
  simp only [h]

/-- 5 times a plus 4 times b in GF(2^8): the matrix of `MixColumns`, squared, has in each row a 5 on the diagonal, a 4
two places on, and 0 elsewhere. -/
def fiveFour (a b : Byte) : Byte :=
  a ^^^ xtime (xtime a) ^^^ xtime (xtime b)

theorem mixRow_mixRow (r : Nat) (hr : r < 4) (a : Nat → Byte) :
    mixRow r (mixRow 0 (a 0) (a 1) (a 2) (a 3)) (mixRow 1 (a 0) (a 1) (a 2) (a 3)) (mixRow 2 (a 0) (a 1) (a 2) (a 3))
      (mixRow 3 (a 0) (a 1) (a 2) (a 3)) = fiveFour (a r) (a ((r + 2) % 4)) := by
  interval_cases r
  all_goals
    simp only [mixRow, mul2, mul3, fiveFour, xtime_xor, Nat.reduceAdd, Nat.reduceMod]
    ac_nf
    simp only [xor_cancel_left, BitVec.xor_self, BitVec.xor_zero]

theorem getElem_mixColumns_mixColumns (b : Block) (r c : Nat) (hr : r < 4) (hc : c < 4) :
    (mixColumns (mixColumns b))[r + 4 * c] = fiveFour b[r + 4 * c] b[(r + 2) % 4 + 4 * c] := by
  have hsq := mixRow_mixRow r hr fun q => b[q % 4 + 4 * c]
  simp only [Nat.mod_eq_of_lt hr, Nat.mod_mod] at hsq
  rw [← hsq, getElem_mixColumns _ r c hr hc, getElem_mixColumns _ 0 c (by decide) hc,
    getElem_mixColumns _ 1 c (by decide) hc, getElem_mixColumns _ 2 c (by decide) hc,
    getElem_mixColumns _ 3 c (by decide) hc]

theorem fiveFour_fiveFour (a b : Byte) : fiveFour (fiveFour a b) (fiveFour b a) = a := by
  simp only [fiveFour, xtime_xor, BitVec.xor_assoc, Byte.xor_left_comm, xor_cancel_left, BitVec.xor_self,
    BitVec.xor_zero]

/-- `MixColumns` four times is the identity. -/
theorem mixColumns_mixColumns_involutive : Function.Involutive fun b => mixColumns (mixColumns b) := by
  intro b
  ext i hi : 1
  obtain ⟨r, hr, c, hc, rfl⟩ : ∃ r < 4, ∃ c < 4, i = r + 4 * c := ⟨i % 4, by omega, i / 4, by omega, by omega⟩
  have hback : ((r + 2) % 4 + 2) % 4 = r := by omega
  rw [getElem_mixColumns_mixColumns _ r c hr hc, getElem_mixColumns_mixColumns b r c hr hc,
    getElem_mixColumns_mixColumns b ((r + 2) % 4) c (by omega) hc]
  simp only [hback, fiveFour_fiveFour]

theorem mixColumns_injective : Function.Injective mixColumns :=
  Function.Injective.of_comp (f := mixColumns) mixColumns_mixColumns_involutive.injective

theorem blockOfLabel_injective : Function.Injective blockOfLabel :=
  Function.LeftInverse.injective labelOfBlock_blockOfLabel

theorem labelOfBlock_injective : Function.Injective labelOfBlock :=
  Function.LeftInverse.injective blockOfLabel_labelOfBlock

theorem addRoundKey_injective (rk : Label) : Function.Injective fun x => addRoundKey x rk :=
  fun _ _ h => (BitVec.xor_left_inj rk).mp h

theorem fullRound_injective (rk : Label) : Function.Injective fun x => fullRound x rk :=
  (addRoundKey_injective rk).comp <| labelOfBlock_injective.comp <| mixColumns_injective.comp <|
    shiftRows_injective.comp <| subBytes_injective.comp blockOfLabel_injective

theorem finalRound_injective (rk : Label) : Function.Injective fun x => finalRound x rk :=
  (addRoundKey_injective rk).comp <| labelOfBlock_injective.comp <| shiftRows_injective.comp <|
    subBytes_injective.comp blockOfLabel_injective

theorem foldl_fullRound_injective (keys : List Label) : Function.Injective fun x => keys.foldl fullRound x := by
  induction keys with
  | nil => exact Function.injective_id
  | cons k keys ih => exact ih.comp (fullRound_injective k)

theorem encrypt_injective (rk : Schedule) : Function.Injective (encrypt rk) :=
  (finalRound_injective rk[14]).comp <| (foldl_fullRound_injective (middleKeys rk)).comp <|
    addRoundKey_injective rk[0]

/-! ## The commands (R71 to R74) -/

/-- A well-formed command is spelled by its own word alone (R55). -/
theorem decode_eq_ok_iff_of_encode {cw w : CmdWord} {i : Instr} (hwf : i.wellFormed = true) (hw : encode i = w) :
    decode cw = .ok i ↔ cw = w := by
  rw [decode_eq_ok, hw, and_iff_left hwf]

theorem encode_rdrk : ∀ idx : RkIdx, encode (.rdrk idx) = 0x03000000 ||| BitVec.ofNat 64 idx.val <<< 8 := by
  decide

theorem wellFormed_rdrk : ∀ idx : RkIdx, (Instr.rdrk idx).wellFormed = true ↔ idx ≠ 15 := by
  decide

theorem encode_enc : ∀ rd ra : LReg,
    encode (.enc rd ra) = 0x04000000 ||| BitVec.ofNat 64 rd.val <<< 21 ||| BitVec.ofNat 64 ra.val <<< 18 := by
  decide

section Issuing

variable {s : State} {ln : Lane} {rk : Schedule} (hl : s.Issuing ln)
include hl

theorem exec_ctxclr_of_issuing : exec .ctxclr s = .next (State.answered { s with ctx := none } ln .ok 0) :=
  perform_ok (body := fun _ => .ok (.setContext none)) hl rfl

/-- Without a context every command that reads it faults, before it looks at a source register (R141, R145). -/
theorem exec_of_readsContext_of_ctx_none {i : Instr} (hctx : s.ctx = none) (hwf : i.wellFormed = true)
    (hreads : i.readsContext = true) : exec i s = .next (s.faulted ln .errNoctx) := by
  have hread := State.readContext_of_none hctx
  cases i
  case rdrk idx =>
    have hidx : idx.val < 15 := Nat.lt_succ_of_le (of_decide_eq_true hwf)
    exact perform_error hl (by rw [dif_pos hidx, hread]; rfl)
  case enc => exact perform_error hl (by rw [hread]; rfl)
  case gate => exact perform_error hl (by rw [hread]; rfl)
  all_goals cases hreads

theorem exec_rdrk_of_no_round_key {idx : RkIdx} (hidx : ¬idx.val < 15) :
    exec (.rdrk idx) s = .next (s.faulted ln .errIllegal) :=
  perform_error hl (by rw [dif_neg hidx])

theorem exec_rdrk_of_ctx_some {idx : RkIdx} (hidx : idx.val < 15) (hctx : s.ctx = some rk) :
    exec (.rdrk idx) s = .next (s.answered ln .ok rk[idx.val]) :=
  perform_ok (e := .drive rk[idx.val]) hl (by rw [dif_pos hidx, State.readContext_of_some hctx]; rfl)

theorem exec_enc_of_invalid (rd : LReg) {ra : LReg} (hctx : s.ctx = some rk) (ha : ln.labels[ra] = none) :
    exec (.enc rd ra) s = .next (s.faulted ln .errUninit) :=
  perform_error hl (by rw [State.readContext_of_some hctx, Lane.readLabel_of_invalid ha]; rfl)

theorem exec_enc_of_valid (rd : LReg) {ra : LReg} {a : Label} (hctx : s.ctx = some rk) (ha : ln.labels[ra] = some a) :
    exec (.enc rd ra) s = .next (s.loaded ln rd (encrypt rk a)) :=
  perform_ok (e := .setLabel rd (encrypt rk a)) hl
    (by rw [State.readContext_of_some hctx, Lane.readLabel_of_valid ha]; rfl)

end Issuing

end Sys2Proof.Machine

namespace Sys2Proof.Proofs

open Sys2Proof.Machine

/-- Settles O17: the context `MKC` builds is `KeyExpand` of DIN. -/
theorem mkcCommand : Obligations.MkcCommand := by
  refine ⟨fun cw => decode_eq_ok_iff_of_encode rfl (by decide), by decide, fun s ln hl => ⟨fun hctx => ?builds,
    fun rk hctx => exec_mkc_of_ctx_some hl hctx⟩⟩
  case builds => exact ⟨keyExpand s.din, rfl, getElem_keyExpand_succ s.din, exec_mkc_of_ctx_none hl hctx⟩

/-- Settles O18: the state after `CTXCLR` has no context, so its readers fault on every lane and `MKC` builds one. -/
theorem ctxclrCommand : Obligations.CtxclrCommand := by
  refine ⟨fun cw => decode_eq_ok_iff_of_encode rfl (by decide), fun s ln hl =>
    ⟨_, rfl, exec_ctxclr_of_issuing hl, fun p din ln' hl' => ⟨fun i hwf hreads => ?readers, ?mkc⟩⟩⟩
  case readers => exact exec_of_readsContext_of_ctx_none hl' rfl hwf hreads
  case mkc => exact exec_mkc_of_ctx_none hl' rfl

/-- Settles O19, in the order of R73's checks: the index, the context, the round key. -/
theorem rdrkCommand : Obligations.RdrkCommand := by
  refine ⟨fun cw idx => ?word, fun s ln hl => ⟨exec_rdrk_of_no_round_key hl (by decide), fun idx hidx =>
    ⟨fun hctx => ?noctx, fun rk hctx => exec_rdrk_of_ctx_some hl hidx hctx, fun key hctx => ?masterKey⟩⟩⟩
  case word => rw [decode_eq_ok, encode_rdrk, wellFormed_rdrk, and_comm]
  case noctx =>
    have hwf : (Instr.rdrk idx).wellFormed = true := decide_eq_true (Nat.le_of_lt_succ hidx)
    exact exec_of_readsContext_of_ctx_none hl hctx hwf rfl
  case masterKey => exact exec_rdrk_of_ctx_some hl (idx := 0) (by decide) hctx

/-- Settles O20, in the order of R74's checks: the context, then the source. -/
theorem encCommand : Obligations.EncCommand := by
  refine fun rd ra => ⟨fun cw => decode_eq_ok_iff_of_encode rfl (encode_enc rd ra), fun s ln hl => ⟨fun hctx => ?noctx,
    fun rk hctx => ⟨fun ha => ?uninit, fun a ha => ?enciphers⟩⟩⟩
  case noctx => exact exec_of_readsContext_of_ctx_none hl hctx rfl rfl
  case uninit => exact exec_enc_of_invalid hl rd hctx ha
  case enciphers => exact exec_enc_of_valid hl rd hctx ha

/-- Settles O30: the table fixes every inverse through the affine map, and `invSbox` undoes the table. -/
theorem sboxIsAffineOfInverse : Obligations.SboxIsAffineOfInverse :=
  ⟨ginv_zero, gmul_ginv, sbox_eq_sboxAffine_ginv, Finite.injective_iff_bijective.mp sbox_injective⟩

/-- Settles O31: the four words of `KeyStep` are read back one by one. -/
theorem keyStepWords : Obligations.KeyStepWords := by
  intro prev rc temp htemp
  refine ⟨?_, fun j hj => word32_keyStep_succ prev rc j hj⟩
  rw [word32_keyStep_zero, keyStep_temp_eq_bytes, htemp]

/-- Settles O32, row by row of `MixColumns`. -/
theorem fullRoundBytes : Obligations.FullRoundBytes := by
  intro x rk c a hc ha
  have hbyte (r : Nat) (hr : r < 4) := blockByte_fullRound rk r hr hc ha
  have htop := hbyte 0 (by decide)
  rw [Nat.zero_add] at htop
  rw [Nat.add_comm _ 1, Nat.add_comm _ 2, Nat.add_comm _ 3]
  exact ⟨htop, hbyte 1 (by decide), hbyte 2 (by decide), hbyte 3 (by decide)⟩

/-- Settles O33: the final round only moves, substitutes and adds bytes. -/
theorem finalRoundBytes : Obligations.FinalRoundBytes :=
  blockByte_finalRound

/-- Settles O34: the states between the full rounds are the partial folds over round keys 1 to 13. -/
theorem encryptIsFourteenRounds : Obligations.EncryptIsFourteenRounds := by
  intro rk x st h0 hsucc
  have hfold := foldl_eq_of_succ fullRound (middleKeys rk) st fun i hi => by
    rw [getElem_middleKeys]
    exact hsucc i (length_middleKeys rk ▸ hi)
  rw [encrypt, addRoundKey, ← h0, hfold, length_middleKeys]

/-- Settles O35: every step of every round is injective, and the 128-bit values are finitely many. -/
theorem encryptIsBijective : Obligations.EncryptIsBijective :=
  fun rk => Finite.injective_iff_bijective.mp (encrypt_injective rk)

end Sys2Proof.Proofs
end

section
/-! PROOFS. The family of 41_label_alu.md: doubling and quadrupling word by word and as arithmetic modulo 2^128 (R101,
R102), the laws of the label algebra (R113), and the commands `LDL`, `STL`, `XOR`, `DBL`, `QUAD` and `CTWK` (R105 to
R110). -/

namespace Sys2Proof

/-! ## A command word as the bitwise or of its operands, each at its place (R51, R52) -/

theorem packFields_eq_or (f : Fields) :
    packFields f = f.imm32.setWidth 64 <<< 32 ||| f.opcode.setWidth 64 <<< 24 ||| f.rd.setWidth 64 <<< 21 |||
      f.ra.setWidth 64 <<< 18 ||| f.rb.setWidth 64 <<< 15 ||| f.rc.setWidth 64 <<< 12 ||| f.idx.setWidth 64 <<< 8 |||
      f.zero.setWidth 64 := by
  have hself : packFields f = (packFields f).setWidth 64 := (BitVec.setWidth_eq _).symm
  rw [hself, packFields]
  simp only [-Nat.reduceAdd, BitVec.setWidth_append_eq_shiftLeft_setWidth_or, BitVec.shiftLeft_or_distrib,
    ← BitVec.shiftLeft_add]

theorem setWidth_ofFin (r : LReg) : (BitVec.ofFin r : BitVec 3).setWidth 64 = BitVec.ofNat 64 r.val :=
  (BitVec.ofNat_toNat 64 (.ofFin (w := 3) r)).symm

/-- The word of a command without round-key index: tweak, opcode and the four register fields. -/
theorem packFields_fieldsWith (op : BitVec 8) (rd ra rb rc : LReg) (t : Tweak) :
    packFields (fieldsWith op rd ra rb rc 0 t) =
      t.setWidth 64 <<< 32 ||| op.setWidth 64 <<< 24 ||| BitVec.ofNat 64 rd.val <<< 21 |||
        BitVec.ofNat 64 ra.val <<< 18 ||| BitVec.ofNat 64 rb.val <<< 15 ||| BitVec.ofNat 64 rc.val <<< 12 := by
  rw [packFields_eq_or]
  simp only [fieldsWith, setWidth_ofFin]
  simp

theorem encode_ldl (rd : LReg) : encode (.ldl rd) = 0x10000000 ||| BitVec.ofNat 64 rd.val <<< 21 := by
  simp [encode, instrFields, packFields_fieldsWith, opcodeOf]

theorem encode_stl (ra : LReg) : encode (.stl ra) = 0x11000000 ||| BitVec.ofNat 64 ra.val <<< 18 := by
  simp [encode, instrFields, packFields_fieldsWith, opcodeOf]

theorem encode_xor (rd ra rb : LReg) :
    encode (.xor rd ra rb) = 0x12000000 ||| BitVec.ofNat 64 rd.val <<< 21 ||| BitVec.ofNat 64 ra.val <<< 18 |||
      BitVec.ofNat 64 rb.val <<< 15 := by
  simp [encode, instrFields, packFields_fieldsWith, opcodeOf]

theorem encode_dbl (rd ra : LReg) :
    encode (.dbl rd ra) = 0x13000000 ||| BitVec.ofNat 64 rd.val <<< 21 ||| BitVec.ofNat 64 ra.val <<< 18 := by
  simp [encode, instrFields, packFields_fieldsWith, opcodeOf]

theorem encode_quad (rd ra : LReg) :
    encode (.quad rd ra) = 0x14000000 ||| BitVec.ofNat 64 rd.val <<< 21 ||| BitVec.ofNat 64 ra.val <<< 18 := by
  simp [encode, instrFields, packFields_fieldsWith, opcodeOf]

theorem encode_ctwk (rd ra rb : LReg) (t : Tweak) :
    encode (.ctwk rd ra rb t) = t.setWidth 64 <<< 32 ||| 0x15000000 ||| BitVec.ofNat 64 rd.val <<< 21 |||
      BitVec.ofNat 64 ra.val <<< 18 ||| BitVec.ofNat 64 rb.val <<< 15 := by
  simp [encode, instrFields, packFields_fieldsWith, opcodeOf]

end Sys2Proof

namespace Sys2Proof.Machine

/-! ## Doubling and quadrupling (R101, R102) -/

theorem Label.high_append_low (a : Label) : a.extractLsb' 64 64 ++ a.extractLsb' 0 64 = a :=
  (BitVec.extractLsb'_append_extractLsb'_eq_extractLsb' (start₁ := 0) rfl).trans BitVec.extractLsb'_eq_self

/-- A shift of a two-word value carries the top bits of the low word, in order, into the high word. -/
theorem append_shiftLeft_eq_carry (hi lo : BitVec 64) {n : Nat} (hn : n ≤ 64) :
    (hi ++ lo) <<< n = (hi <<< n ||| lo >>> (64 - n)) ++ lo <<< n := by
  refine BitVec.eq_of_getLsbD_eq fun i hlt => ?_
  simp only [BitVec.getLsbD_shiftLeft, BitVec.getLsbD_append, BitVec.getLsbD_or, BitVec.getLsbD_ushiftRight, hlt]
  by_cases hword : i < 64
  · have hsource : i - n < 64 := by omega
    simp [hword, hsource]
  have hshifted : ¬i < n := by omega
  have hhigh : i - 64 < 64 := by omega
  by_cases hcarried : i - 64 < n
  · have hsource : i - n < 64 := by omega
    have hbit : 64 - n + (i - 64) = i - n := by omega
    simp [hword, hshifted, hcarried, hsource, hbit]
  · have hsource : ¬i - n < 64 := by omega
    have hbit : i - n - 64 = i - 64 - n := by omega
    have hnone : lo.getLsbD (64 - n + (i - 64)) = false := BitVec.getLsbD_of_ge lo _ (by omega)
    simp [hword, hshifted, hcarried, hsource, hbit, hhigh, hnone]

theorem labelDbl_eq_ofNat (a : Label) : labelDbl a = BitVec.ofNat 128 (2 * a.toNat) := by
  refine BitVec.eq_of_toNat_eq ?_
  rw [labelDbl, BitVec.toNat_shiftLeft, BitVec.toNat_ofNat, Nat.shiftLeft_eq, Nat.mul_comm, pow_one]

theorem labelQuad_eq_ofNat (a : Label) : labelQuad a = BitVec.ofNat 128 (4 * a.toNat) := by
  refine BitVec.eq_of_toNat_eq ?_
  rw [labelQuad, BitVec.toNat_shiftLeft, BitVec.toNat_ofNat, Nat.shiftLeft_eq, Nat.mul_comm]

theorem widen_eq_ofNat (t : Tweak) : widen t = BitVec.ofNat 128 t.toNat :=
  (BitVec.ofNat_toNat 128 t).symm

theorem combineTweak_eq_ofNat (a b : Label) (t : Tweak) :
    combineTweak a b t =
      BitVec.ofNat 128 (2 * a.toNat) ^^^ BitVec.ofNat 128 (4 * b.toNat) ^^^ BitVec.ofNat 128 t.toNat := by
  rw [combineTweak, labelXor, labelXor, labelDbl_eq_ofNat, labelQuad_eq_ofNat, widen_eq_ofNat]

/-! ## The laws of the label algebra (R113) -/

theorem labelQuad_eq_labelDbl_labelDbl (a : Label) : labelQuad a = labelDbl (labelDbl a) :=
  BitVec.shiftLeft_add a 1 1

theorem labelDbl_xor (a b : Label) : labelDbl (a ^^^ b) = labelDbl a ^^^ labelDbl b :=
  BitVec.shiftLeft_xor_distrib a b 1

theorem labelQuad_xor (a b : Label) : labelQuad (a ^^^ b) = labelQuad a ^^^ labelQuad b :=
  BitVec.shiftLeft_xor_distrib a b 2

theorem labelDbl_xor_bit127 (a : Label) : labelDbl (a ^^^ 1 <<< 127) = labelDbl a := by
  have hlost : labelDbl (1 <<< 127) = 0 := by decide
  rw [labelDbl_xor, hlost, LawfulXor.xor_zero]

theorem labelQuad_xor_bit127 (a : Label) : labelQuad (a ^^^ 1 <<< 127) = labelQuad a := by
  have hlost : labelQuad (1 <<< 127) = 0 := by decide
  rw [labelQuad_xor, hlost, LawfulXor.xor_zero]

theorem labelQuad_xor_bit126 (a : Label) : labelQuad (a ^^^ 1 <<< 126) = labelQuad a := by
  have hlost : labelQuad (1 <<< 126) = 0 := by decide
  rw [labelQuad_xor, hlost, LawfulXor.xor_zero]

/-- `CombineTweak` sees its labels only through `Dbl(a) ^ Quad(b)`. -/
theorem combineTweak_congr {a b a' b' : Label} (h : labelDbl a ^^^ labelQuad b = labelDbl a' ^^^ labelQuad b')
    (t : Tweak) : combineTweak a b t = combineTweak a' b' t :=
  congrArg (· ^^^ widen t) h

/-- Adding `Dbl(d)` to the one label and `d` to the other goes unseen, because `Dbl(Dbl(d)) = Quad(d)`. -/
theorem labelDbl_xor_labelQuad_collision (a b d : Label) :
    labelDbl (a ^^^ labelDbl d) ^^^ labelQuad (b ^^^ d) = labelDbl a ^^^ labelQuad b := by
  rw [labelDbl_xor, labelQuad_xor, ← labelQuad_eq_labelDbl_labelDbl]
  ac_nf
  rw [BitVec.xor_self, BitVec.xor_zero]

theorem getLsbD_zero_combineTweak (a b : Label) (t : Tweak) : (combineTweak a b t).getLsbD 0 = t.getLsbD 0 := by
  simp [combineTweak, labelXor, labelDbl, labelQuad, widen]

theorem getLsbD_one_combineTweak (a b : Label) (t : Tweak) :
    (combineTweak a b t).getLsbD 1 = (a.getLsbD 0 ^^ t.getLsbD 1) := by
  simp [combineTweak, labelXor, labelDbl, labelQuad, widen]

theorem extractLsb'_widen_high (t : Tweak) : (widen t).extractLsb' 32 96 = 0 := by
  refine BitVec.eq_of_getLsbD_eq fun i _ => ?_
  rw [widen, BitVec.getLsbD_extractLsb', BitVec.getLsbD_setWidth, BitVec.getLsbD_of_ge t (32 + i) (by omega)]
  simp

theorem extractLsb'_combineTweak_high (a b : Label) (t : Tweak) :
    (combineTweak a b t).extractLsb' 32 96 = (labelDbl a ^^^ labelQuad b).extractLsb' 32 96 := by
  rw [combineTweak, labelXor, labelXor, BitVec.extractLsb'_xor, extractLsb'_widen_high, LawfulXor.xor_zero]

/-! ## Commands on one or two source registers (R143) -/

section Sources

variable {s : State} {ln : Lane} {ra rb : LReg} {a b : Label} (hl : s.Issuing ln)
include hl

theorem perform_source_of_invalid (f : Label → Effect) (ha : ln.labels[ra] = none) :
    perform s (fun ln => do let a ← ln.readLabel ra; return f a) = .next (s.faulted ln .errUninit) :=
  perform_error hl (by rw [Lane.readLabel_of_invalid ha]; rfl)

theorem perform_source_of_valid (f : Label → Effect) (ha : ln.labels[ra] = some a) :
    perform s (fun ln => do let a ← ln.readLabel ra; return f a) = .next (s.finish ln (f a)) :=
  perform_ok hl (by rw [Lane.readLabel_of_valid ha]; rfl)

theorem perform_two_sources_of_invalid (f : Label → Label → Effect)
    (hab : ln.labels[ra] = none ∨ ln.labels[rb] = none) :
    perform s (fun ln => do let a ← ln.readLabel ra; let b ← ln.readLabel rb; return f a b) =
      .next (s.faulted ln .errUninit) := by
  refine perform_error hl ?_
  obtain ha | hb := hab
  · rw [Lane.readLabel_of_invalid ha]
    rfl
  · obtain ⟨a, -, hread⟩ | ⟨-, hread⟩ := ln.readLabel_cases ra
    · rw [hread, Lane.readLabel_of_invalid hb]
      rfl
    · rw [hread]
      rfl

theorem perform_two_sources_of_valid (f : Label → Label → Effect) (ha : ln.labels[ra] = some a)
    (hb : ln.labels[rb] = some b) :
    perform s (fun ln => do let a ← ln.readLabel ra; let b ← ln.readLabel rb; return f a b) =
      .next (s.finish ln (f a b)) :=
  perform_ok hl (by rw [Lane.readLabel_of_valid ha, Lane.readLabel_of_valid hb]; rfl)

end Sources

end Sys2Proof.Machine

namespace Sys2Proof.Proofs

open Sys2Proof.Machine

/-- Settles O21: `LDL` makes no check. -/
theorem ldlCommand : Obligations.LdlCommand :=
  fun rd => ⟨fun _ => decode_eq_ok_iff_of_encode rfl (encode_ldl rd), fun _ _ hl => exec_ldl_of_issuing rd hl⟩

/-- Settles O23, by whether the source is valid. -/
theorem stlCommand : Obligations.StlCommand :=
  fun ra => ⟨fun _ => decode_eq_ok_iff_of_encode rfl (encode_stl ra), fun _ _ hl =>
    ⟨perform_source_of_invalid hl .drive, fun _ ha => perform_source_of_valid hl .drive ha⟩⟩

/-- Settles O24, by whether both sources are valid; the value is `Xor` of the two. -/
theorem xorCommand : Obligations.XorCommand := by
  refine fun rd ra rb => ⟨fun _ => decode_eq_ok_iff_of_encode rfl (encode_xor rd ra rb), fun s ln hl =>
    ⟨fun hab => ?uninit, fun a b ha hb => ⟨labelXor a b, fun i _ => BitVec.getLsbD_xor, ?loads⟩⟩⟩
  case uninit => exact perform_two_sources_of_invalid hl (fun a b => .setLabel rd (labelXor a b)) hab
  case loads => exact perform_two_sources_of_valid hl (fun a b => .setLabel rd (labelXor a b)) ha hb

/-- Settles O25, by whether the source is valid; the value is `Dbl` of the source. -/
theorem dblCommand : Obligations.DblCommand := by
  refine fun rd ra => ⟨fun _ => decode_eq_ok_iff_of_encode rfl (encode_dbl rd ra), fun s ln hl =>
    ⟨fun ha => ?uninit, fun a ha => ?loads⟩⟩
  case uninit => exact perform_source_of_invalid hl (fun a => .setLabel rd (labelDbl a)) ha
  case loads =>
    rw [← labelDbl_eq_ofNat]
    exact perform_source_of_valid hl (fun a => .setLabel rd (labelDbl a)) ha

/-- Settles O26, by whether the source is valid; the value is `Quad` of the source. -/
theorem quadCommand : Obligations.QuadCommand := by
  refine fun rd ra => ⟨fun _ => decode_eq_ok_iff_of_encode rfl (encode_quad rd ra), fun s ln hl =>
    ⟨fun ha => ?uninit, fun a ha => ?loads⟩⟩
  case uninit => exact perform_source_of_invalid hl (fun a => .setLabel rd (labelQuad a)) ha
  case loads =>
    rw [← labelQuad_eq_ofNat]
    exact perform_source_of_valid hl (fun a => .setLabel rd (labelQuad a)) ha

/-- Settles O27, by whether both sources are valid; the value is `CombineTweak` of the two and the tweak. -/
theorem ctwkCommand : Obligations.CtwkCommand := by
  refine fun rd ra rb t => ⟨fun _ => decode_eq_ok_iff_of_encode rfl (encode_ctwk rd ra rb t), fun s ln hl =>
    ⟨fun hab => ?uninit, fun a b ha hb => ?loads⟩⟩
  case uninit => exact perform_two_sources_of_invalid hl (fun a b => .setLabel rd (combineTweak a b t)) hab
  case loads =>
    rw [← combineTweak_eq_ofNat]
    exact perform_two_sources_of_valid hl (fun a b => .setLabel rd (combineTweak a b t)) ha hb

/-- Settles O36: both are shifts of the two-word value, and shifts are multiplications modulo 2^128. -/
theorem doubleAndQuadrupleCarry : Obligations.DoubleAndQuadrupleCarry := by
  rintro a hi lo rfl rfl
  refine ⟨?dblWords, ?quadWords, ?dbl, ?quad⟩
  case dblWords => rw [← append_shiftLeft_eq_carry _ _ (by decide : 1 ≤ 64), Label.high_append_low, labelDbl]
  case quadWords => rw [← append_shiftLeft_eq_carry _ _ (by decide : 2 ≤ 64), Label.high_append_low, labelQuad]
  case dbl => rw [labelDbl_eq_ofNat, BitVec.toNat_ofNat]
  case quad => rw [labelQuad_eq_ofNat, BitVec.toNat_ofNat]

/-- Settles O37, in the order of R113's items. -/
theorem labelAlgebraLaws : Obligations.LabelAlgebraLaws := by
  intro a b c d t t'
  refine ⟨xor_cancel_right a b, BitVec.xor_comm a b, BitVec.xor_assoc a b c, BitVec.xor_self, BitVec.xor_zero,
    labelQuad_eq_labelDbl_labelDbl a, labelDbl_xor a b, labelQuad_xor a b, (labelDbl_xor_bit127 a).symm,
    (labelQuad_xor_bit127 a).symm, (labelQuad_xor_bit126 a).symm, ?a127, ?b127, ?b126, ?collision,
    getLsbD_zero_combineTweak a b t, getLsbD_one_combineTweak a b t, ?high⟩
  case a127 => exact combineTweak_congr (by rw [labelDbl_xor_bit127]) t
  case b127 => exact combineTweak_congr (by rw [labelQuad_xor_bit127]) t
  case b126 => exact combineTweak_congr (by rw [labelQuad_xor_bit126]) t
  case collision => exact combineTweak_congr (labelDbl_xor_labelQuad_collision a b d).symm t
  case high => rw [extractLsb'_combineTweak_high, extractLsb'_combineTweak_high]

end Sys2Proof.Proofs
end

section
/-! PROOFS. The family of 42_gate_engine.md: `ProcessGate` as a pad over labelC (R121 to R123) and the command `GATE`
(R120, R125), alone and in sequence with other commands. -/

namespace Sys2Proof

theorem encode_gate (rd ra rb rc : LReg) (t : Tweak) :
    encode (.gate rd ra rb rc t) = t.setWidth 64 <<< 32 ||| 0x20000000 ||| BitVec.ofNat 64 rd.val <<< 21 |||
      BitVec.ofNat 64 ra.val <<< 18 ||| BitVec.ofNat 64 rb.val <<< 15 ||| BitVec.ofNat 64 rc.val <<< 12 := by
  simp [encode, instrFields, packFields_fieldsWith, opcodeOf]

end Sys2Proof

namespace Sys2Proof.Machine

/-! ## `ProcessGate` is a pad over labelC (R121 to R123) -/

/-- The pad is what `ProcessGate` gives for labelC = 0. -/
theorem processGate_eq_pad_xor (rk : Schedule) (a b c : Label) (t : Tweak) :
    processGate rk a b c t = processGate rk a b 0 t ^^^ c :=
  congrArg (· ^^^ c) BitVec.xor_zero.symm

/-- `ProcessGate` sees labelA and labelB only through `Dbl(a) ^ Quad(b)`. -/
theorem processGate_congr {a b a' b' : Label} (h : labelDbl a ^^^ labelQuad b = labelDbl a' ^^^ labelQuad b')
    (rk : Schedule) (c : Label) (t : Tweak) : processGate rk a b c t = processGate rk a' b' c t := by
  rw [processGate, processGate, combineTweak_congr h]

theorem processGate_processGate (rk : Schedule) (a b c : Label) (t : Tweak) :
    processGate rk a b (processGate rk a b c t) t = c := by
  rw [processGate_eq_pad_xor, processGate_eq_pad_xor rk a b c, xor_cancel_left]

/-! ## Reading several sources (R143) -/

theorem Lane.readLabel_bind_of_invalid {α : Type} {ln : Lane} {r : LReg} (f : Label → Except ErrCode α)
    (h : ln.labels[r] = none) : (ln.readLabel r >>= f) = .error .errUninit := by
  rw [Lane.readLabel_of_invalid h]
  rfl

/-- If what follows a read faults with `ERR_UNINIT` for every value read, so does the whole, valid register or not. -/
theorem Lane.readLabel_bind_of_rest_uninit {α : Type} {ln : Lane} {r : LReg} {f : Label → Except ErrCode α}
    (h : ∀ v, f v = .error .errUninit) : (ln.readLabel r >>= f) = .error .errUninit := by
  obtain ⟨v, -, hread⟩ | ⟨hinvalid, -⟩ := ln.readLabel_cases r
  · rw [hread]
    exact h v
  · exact Lane.readLabel_bind_of_invalid f hinvalid

/-! ## The commands that write a label, on one lane -/

section Issuing

variable {s : State} {ln : Lane} {rk : Schedule} {ra rb rc : LReg} {a b c : Label} (hl : s.Issuing ln)
include hl

/-- After a register load the lane holds the value in the destination and every other register as before. -/
theorem State.exists_issuing_loaded (rd : LReg) (v : Label) : ∃ ln', (s.loaded ln rd v).Issuing ln' ∧
    ln'.labels[rd] = some v ∧ ∀ r, rd ≠ r → ln'.labels[r] = ln.labels[r] :=
  ⟨(ln.writeLabel rd v).respond .ok 0, List.getElem?_set_self (List.getElem?_eq_some_iff.mp hl).1,
    Vector.getElem_set_self rd.isLt, fun r h => Vector.getElem_set_ne rd.isLt r.isLt (Fin.val_ne_of_ne h)⟩

theorem exec_xor_of_valid (rd : LReg) (ha : ln.labels[ra] = some a) (hb : ln.labels[rb] = some b) :
    exec (.xor rd ra rb) s = .next (s.loaded ln rd (labelXor a b)) :=
  perform_two_sources_of_valid hl (fun a b => .setLabel rd (labelXor a b)) ha hb

theorem exec_ctwk_of_valid (rd : LReg) (t : Tweak) (ha : ln.labels[ra] = some a) (hb : ln.labels[rb] = some b) :
    exec (.ctwk rd ra rb t) s = .next (s.loaded ln rd (combineTweak a b t)) :=
  perform_two_sources_of_valid hl (fun a b => .setLabel rd (combineTweak a b t)) ha hb

theorem exec_gate_of_valid (rd : LReg) (t : Tweak) (hctx : s.ctx = some rk) (ha : ln.labels[ra] = some a)
    (hb : ln.labels[rb] = some b) (hc : ln.labels[rc] = some c) :
    exec (.gate rd ra rb rc t) s = .next (s.loaded ln rd (processGate rk a b c t)) :=
  perform_ok (e := .setLabel rd (processGate rk a b c t)) hl (by
    rw [State.readContext_of_some hctx, Lane.readLabel_of_valid ha, Lane.readLabel_of_valid hb,
      Lane.readLabel_of_valid hc]
    rfl)

theorem exec_gate_of_invalid (rd : LReg) (t : Tweak) (hctx : s.ctx = some rk)
    (habc : ln.labels[ra] = none ∨ ln.labels[rb] = none ∨ ln.labels[rc] = none) :
    exec (.gate rd ra rb rc t) s = .next (s.faulted ln .errUninit) := by
  refine perform_error hl ?_
  rw [State.readContext_of_some hctx]
  obtain ha | hb | hc := habc
  · exact Lane.readLabel_bind_of_invalid _ ha
  · exact Lane.readLabel_bind_of_rest_uninit fun _ => Lane.readLabel_bind_of_invalid _ hb
  · exact Lane.readLabel_bind_of_rest_uninit fun _ =>
      Lane.readLabel_bind_of_rest_uninit fun _ => Lane.readLabel_bind_of_invalid _ hc

end Issuing

end Sys2Proof.Machine

namespace Sys2Proof.Proofs

open Sys2Proof.Machine

/-- Settles O28, in the order of R120's checks: the context, then the sources. -/
theorem gateCommand : Obligations.GateCommand := by
  refine fun rd ra rb rc t => ⟨fun cw => decode_eq_ok_iff_of_encode rfl (encode_gate rd ra rb rc t), fun s ln hl =>
    ⟨fun hctx => ?noctx, fun rk hctx => ⟨fun habc => ?uninit, fun a b c k ha hb hc hk => ?loads⟩⟩⟩
  case noctx => exact exec_of_readsContext_of_ctx_none hl hctx rfl rfl
  case uninit => exact exec_gate_of_invalid hl rd t hctx habc
  case loads =>
    rw [hk, ← combineTweak_eq_ofNat]
    exact exec_gate_of_valid hl rd t hctx ha hb hc

/-- Settles O38: each result is the one pad xored with its labelC. -/
theorem gatePadLaws : Obligations.GatePadLaws := by
  refine fun rk a b c c' t => ⟨?pad, processGate_processGate rk a b c t, ?difference⟩
  case pad => rw [processGate_eq_pad_xor, xor_cancel_right]
  case difference =>
    rw [processGate_eq_pad_xor, processGate_eq_pad_xor rk a b c', BitVec.xor_comm _ c, BitVec.xor_assoc,
      xor_cancel_left]

/-- Settles O39: the doublings discard the flipped bits. -/
theorem gateIgnoresDiscardedBits : Obligations.GateIgnoresDiscardedBits := by
  refine fun rk a b a' b' c t => ⟨?a127, ?b127, ?b126, fun hcollide => processGate_congr hcollide rk c t⟩
  case a127 => exact processGate_congr (by rw [labelDbl_xor_bit127]) rk c t
  case b127 => exact processGate_congr (by rw [labelQuad_xor_bit127]) rk c t
  case b126 => exact processGate_congr (by rw [labelQuad_xor_bit126]) rk c t

/-- Settles O40: both write `ProcessGate` of the round keys, the source values and the tweak. -/
theorem gateIsDeterministic : Obligations.GateIsDeterministic :=
  fun _ _ _ _ rd _ _ _ rd' _ _ _ t rk a b c hl hl' hctx hctx' ha hb hc ha' hb' hc' =>
    ⟨processGate rk a b c t, exec_gate_of_valid hl rd t hctx ha hb hc,
      exec_gate_of_valid hl' rd' t hctx' ha' hb' hc'⟩

/-- Settles O41: the second `GATE` reads the same labelA and labelB, and as labelC what the first one wrote. -/
theorem evaluateUndoesGarble : Obligations.EvaluateUndoesGarble := by
  intro s ln rk a b c rd ra rb rc re t hl hctx ha hb hc hda hdb
  have hgarble := exec_gate_of_valid hl rd t hctx ha hb hc
  obtain ⟨lnG, hlG, hd, hkeep⟩ := State.exists_issuing_loaded hl rd (processGate rk a b c t)
  have hevaluate := exec_gate_of_valid hlG re t hctx ((hkeep ra hda).trans ha) ((hkeep rb hdb).trans hb) hd
  rw [processGate_processGate] at hevaluate
  obtain ⟨lnE, hlE, he, -⟩ := State.exists_issuing_loaded hlG re c
  exact ⟨_, _, lnE, hgarble, hevaluate, hlE, he⟩

/-- Settles O42: the four commands compute the combined label k, its encryption p, `p ^ k` and the result, one after
the other, while labelC stays in its register. -/
theorem gateEqualsFourCommands : Obligations.GateEqualsFourCommands := by
  intro s ln rk a b c rd ra rb rc kk pp xx t hl hctx ha hb hc hkc hpk hpc hxc
  obtain ⟨k, hcombine⟩ : ∃ k, combineTweak a b t = k := ⟨_, rfl⟩
  obtain ⟨p, hencrypt⟩ : ∃ p, encrypt rk k = p := ⟨_, rfl⟩
  have hgate : exec (.gate rd ra rb rc t) s = .next (s.loaded ln rd (labelXor (labelXor p k) c)) := by
    rw [exec_gate_of_valid hl rd t hctx ha hb hc, processGate, hcombine, hencrypt]
  obtain ⟨lnGate, hlGate, hdGate, -⟩ := State.exists_issuing_loaded hl rd (labelXor (labelXor p k) c)
  have hctwk := exec_ctwk_of_valid hl kk t ha hb
  rw [hcombine] at hctwk
  obtain ⟨ln₁, hl₁, hk₁, hkeep₁⟩ := State.exists_issuing_loaded hl kk k
  have henc := exec_enc_of_valid hl₁ pp hctx hk₁
  rw [hencrypt] at henc
  obtain ⟨ln₂, hl₂, hp₂, hkeep₂⟩ := State.exists_issuing_loaded hl₁ pp p
  have hk₂ := (hkeep₂ kk hpk).trans hk₁
  have hxor := exec_xor_of_valid hl₂ xx hp₂ hk₂
  obtain ⟨ln₃, hl₃, hx₃, hkeep₃⟩ := State.exists_issuing_loaded hl₂ xx (labelXor p k)
  have hc₃ : ln₃.labels[rc] = some c :=
    calc ln₃.labels[rc]
      _ = ln₂.labels[rc] := hkeep₃ rc hxc
      _ = ln₁.labels[rc] := hkeep₂ rc hpc
      _ = ln.labels[rc] := hkeep₁ rc hkc
      _ = some c := hc
  have hmask := exec_xor_of_valid hl₃ rd hx₃ hc₃
  obtain ⟨lnFour, hlFour, hdFour, -⟩ := State.exists_issuing_loaded hl₃ rd (labelXor (labelXor p k) c)
  exact ⟨_, _, _, _, _, lnGate, lnFour, _, hgate, hctwk, henc, hxor, hmask, hlGate, hlFour, hdGate, hdFour⟩

end Sys2Proof.Proofs
end

section
/-! PROOFS. The family of 43_system.md: the status word that `RDST` answers, field by field (R130, R16), and the answer
every presented command gets (R133, R148). -/

namespace Sys2Proof.Machine

/-! ## The status word, field by field -/

/-- Bit i of the LV field is `LV[i]` (R130). -/
theorem Lane.getLsbD_lvBits (ln : Lane) (i : LReg) : ln.lvBits.getLsbD i = ln.lv i := by
  simp only [Lane.lvBits, BitVec.getLsbD_append]
  fin_cases i <;> simp

section StatusWord

variable (s : State) (ln : Lane)

/-- The fields lie beside each other: from the top zeros, LANEID, LV, FIRSTERR, zeros and CTXV (R16). -/
theorem statusWord_eq_append :
    statusWord s ln = 0#104 ++ ln.laneId ++ ln.lvBits ++ ln.firstErr ++ 0#3 ++ BitVec.ofBool s.ctxv := by
  -- A concatenation widened to 128 bits, which it already has, is the bitwise or of its shifted parts.
  refine Eq.trans ?_ (BitVec.setWidth_eq _)
  rw [statusWord]
  simp only [-Nat.reduceAdd, BitVec.setWidth_append_eq_shiftLeft_setWidth_or, BitVec.shiftLeft_or_distrib,
    ← BitVec.shiftLeft_add]
  simp

theorem statusWord_bit_zero : (statusWord s ln).getLsbD 0 = s.ctxv := by
  rw [statusWord_eq_append, BitVec.getLsbD_append]
  simp

/-- The fields above CTXV, read back at the places R16 gives them. -/
theorem extractLsb'_statusWord :
    (statusWord s ln).extractLsb' 1 3 = 0#3 ∧ (statusWord s ln).extractLsb' 4 4 = ln.firstErr ∧
      (statusWord s ln).extractLsb' 8 8 = ln.lvBits ∧ (statusWord s ln).extractLsb' 16 8 = ln.laneId ∧
      (statusWord s ln).extractLsb' 24 104 = 0#104 := by
  rw [statusWord_eq_append]
  simp (disch := omega) only [-Nat.reduceAdd, -Nat.reduceSub, BitVec.extractLsb'_append_eq_of_add_le,
    BitVec.extractLsb'_append_eq_of_le]
  simp

theorem getLsbD_statusWord_lv (i : LReg) : (statusWord s ln).getLsbD (8 + i) = ln.lv i := by
  obtain ⟨-, -, hlv, -, -⟩ := extractLsb'_statusWord s ln
  rw [← Lane.getLsbD_lvBits, ← hlv, BitVec.getLsbD_extractLsb', decide_eq_true i.isLt, Bool.true_and]

end StatusWord

theorem exec_rdst_of_issuing {s : State} {ln : Lane} (hl : s.Issuing ln) :
    exec .rdst s = .next (s.answered ln .ok (statusWord s ln)) :=
  perform_ok (body := fun ln => .ok (.drive (statusWord s ln))) hl rfl

/-! ## No event stops the block, and an answered lane holds a response -/

theorem illegalWord_of_issuing {s : State} {ln : Lane} (hl : s.Issuing ln) :
    illegalWord s = .next (s.putLane (ln.takeFault .errIllegal)) :=
  perform_error hl rfl

/-- A word presented on a port the block has, legal or not, takes its step (R133). -/
theorem exists_step_of_command {s : State} {p : Nat} {cw : CmdWord} {din : Label} {rest : List HostEvent}
    (hp : s.pending = .command p cw din :: rest) (hlt : p < s.lanes.length) : ∃ t, step s = .next t := by
  have hl : State.Issuing { s with lane := p, din := din, pending := rest } s.lanes[p] :=
    List.getElem?_eq_getElem hlt
  cases hd : decode cw with
  | error e => exact ⟨_, (step_illegal hp hd).trans (illegalWord_of_issuing hl)⟩
  | ok i =>
    obtain ⟨t, ht⟩ := exec_of_issuing i hl
    exact ⟨t, (step_command hp hd).trans ht⟩

theorem Lane.Answers.exists_response {ln ln' : Lane} (h : ln.Answers ln') : ∃ r, ln'.response = some r := by
  cases h with
  | fault c => exact ⟨_, ln.takeFault_response c⟩
  | complete e => exact ⟨_, e.response_onLane ln⟩

end Sys2Proof.Machine

namespace Sys2Proof.Proofs

open Sys2Proof.Machine

/-- Settles O29: `RDST` only drives the status word, whose fields are read back one by one. -/
theorem rdstCommand : Obligations.RdstCommand := by
  refine ⟨fun cw => decode_eq_ok_iff_of_encode rfl (by decide), fun s ln hl => ?_⟩
  obtain ⟨hzeroLow, hfirstErr, -, hlaneId, hzeroHigh⟩ := extractLsb'_statusWord s ln
  exact ⟨statusWord s ln, exec_rdst_of_issuing hl, statusWord_bit_zero s ln, hzeroLow, hfirstErr,
    getLsbD_statusWord_lv s ln, hlaneId, hzeroHigh⟩

/-- Settles O54, by the kind of event the step takes: a word is answered by a fault or by its command's end, and RESET
and an idle step answer nothing and keep the number of lanes. -/
theorem everyCommandIsAnswered : Obligations.EveryCommandIsAnswered := by
  intro s hports
  match hp : s.pending with
  | [] => exact ⟨s, step_idle hp, rfl, fun p cw din rest h => nomatch h⟩
  | .reset :: rest => exact ⟨_, step_reset_event hp, List.length_map _, fun p cw din rest h => nomatch h⟩
  | .command p cw din :: rest =>
    have hlt : p < s.lanes.length := hports p cw din rest hp
    obtain ⟨t, ht⟩ := exists_step_of_command hp hlt
    obtain ⟨ln, ln', -, ha, hlanes⟩ := step_command_lanes hp ht
    obtain ⟨r, hr⟩ := ha.exists_response
    refine ⟨t, ht, by rw [hlanes, List.length_set], fun q cw' din' rest' h => ?_⟩
    cases h
    exact ⟨ln', r, hlanes ▸ List.getElem?_set_self hlt, hr⟩

end Sys2Proof.Proofs
end

section
/-! PROOFS. The family of 60_exceptions.md: which fault a command reports (R140 to R145), what a fault leaves unchanged
(R146), what FIRSTERR is evidence of (R147), and the block that is issued nothing (R150). -/

namespace Sys2Proof.Machine

/-! ## The fault a command's checks end with (R145) -/

/-- The fault with which checks and computation end, if they end with one. -/
def faultIn {α : Type} : Except ErrCode α → Option ErrCode
  | .error c => some c
  | .ok _ => none

@[simp] theorem faultIn_error {α : Type} (c : ErrCode) : faultIn (.error c : Except ErrCode α) = some c := rfl

@[simp] theorem faultIn_ok {α : Type} (a : α) : faultIn (.ok a) = none := rfl

theorem eq_error_of_faultIn {α : Type} {r : Except ErrCode α} {c : ErrCode} (h : faultIn r = some c) :
    r = .error c := by
  cases r with
  | error c' => exact congrArg Except.error (Option.some.inj h)
  | ok a => cases h

theorem eq_ok_of_faultIn {α : Type} {r : Except ErrCode α} (h : faultIn r = none) : ∃ a, r = .ok a := by
  cases r with
  | error c => cases h
  | ok a => exact ⟨a, rfl⟩

/-- Of two checks in sequence the first that fails is reported. -/
theorem faultIn_bind {α β : Type} {x : Except ErrCode α} {f : α → Except ErrCode β} {later : Option ErrCode}
    (hf : ∀ a, faultIn (f a) = later) : faultIn (x >>= f) = (faultIn x).or later := by
  cases x with
  | error c => rfl
  | ok a => exact hf a

/-- The fault of reading the context (R141). -/
def State.contextFault (s : State) : Option ErrCode :=
  if s.ctxv = false then some .errNoctx else none

theorem faultIn_readContext (s : State) : faultIn s.readContext = s.contextFault := by
  obtain ⟨rk, hctx, hread⟩ | ⟨hctx, hread⟩ := s.readContext_cases <;>
    simp [State.contextFault, State.ctxv, hctx, hread]

theorem faultIn_readContext_bind {α : Type} {s : State} {later : Option ErrCode} {f : Schedule → Except ErrCode α}
    (hf : ∀ rk, faultIn (f rk) = later) : faultIn (s.readContext >>= f) = s.contextFault.or later := by
  rw [faultIn_bind hf, faultIn_readContext]

/-- The fault of reading the registers `rs` of a lane (R143). -/
def Lane.sourceFault (ln : Lane) (rs : List LReg) : Option ErrCode :=
  if ∃ r ∈ rs, ln.lv r = false then some .errUninit else none

theorem faultIn_ok_eq_sourceFault_nil {α : Type} (ln : Lane) (a : α) : faultIn (.ok a) = ln.sourceFault [] := by
  simp [Lane.sourceFault]

theorem faultIn_readLabel (ln : Lane) (r : LReg) : faultIn (ln.readLabel r) = ln.sourceFault [r] := by
  obtain ⟨v, hv, hread⟩ | ⟨hv, hread⟩ := ln.readLabel_cases r <;>
    rw [hread] <;> simp [Lane.sourceFault, Lane.lv, -Fin.getElem_fin, hv]

/-- Reading a register before the registers `rs`. -/
theorem faultIn_readLabel_bind {α : Type} {ln : Lane} {r : LReg} {rs : List LReg} {f : Label → Except ErrCode α}
    (hf : ∀ a, faultIn (f a) = ln.sourceFault rs) : faultIn (ln.readLabel r >>= f) = ln.sourceFault (r :: rs) := by
  rw [faultIn_bind hf, faultIn_readLabel]
  cases h : ln.lv r <;> simp [Lane.sourceFault, h]

/-- A well-formed command other than `MKC` checks the context if it reads it, then its sources. -/
theorem faultOf_of_ne_mkc {i : Instr} (hwf : i.wellFormed = true) (hmkc : i ≠ .mkc) (s : State) (ln : Lane) :
    i.faultOf s ln = (if i.readsContext = true then s.contextFault else none).or (ln.sourceFault i.sources) := by
  cases hreads : i.readsContext <;> cases hctx : s.ctxv <;>
    simp [Instr.faultOf, State.contextFault, Lane.sourceFault, hwf, hmkc, hreads, hctx]

theorem faultOf_mkc (s : State) (ln : Lane) :
    Instr.mkc.faultOf s ln = if s.ctxv = true then some .errCtxlocked else none := by
  simp [Instr.faultOf, Instr.wellFormed, Instr.readsContext, Instr.sources]

/-- A command's checks and computation end with the fault of R145's order, or with an effect where there is none. -/
theorem exec_conclude_faultOf (i : Instr) {s : State} {ln : Lane} (hl : s.Issuing ln) :
    ∃ r, exec i s = .next (s.conclude ln r) ∧ faultIn r = i.faultOf s ln := by
  obtain rfl | hmkc := eq_or_ne i .mkc
  · refine ⟨_, perform_of_issuing _ hl, ?_⟩
    rw [faultOf_mkc]
    cases hctx : s.ctx <;> simp [State.ctxv, hctx]
  cases i
  case mkc => exact absurd rfl hmkc
  case rdrk idx =>
    refine ⟨_, perform_of_issuing _ hl, ?_⟩
    by_cases hidx : idx.val < 15
    · have hwf : (Instr.rdrk idx).wellFormed = true := decide_eq_true (Nat.le_of_lt_succ hidx)
      rw [dif_pos hidx, faultOf_of_ne_mkc hwf hmkc]
      exact faultIn_readContext_bind fun _ => faultIn_ok_eq_sourceFault_nil ln _
    · have hwf : (Instr.rdrk idx).wellFormed = false := decide_eq_false fun h => hidx (Nat.lt_succ_of_le h)
      rw [dif_neg hidx, Instr.faultOf, if_pos hwf, faultIn_error]
  all_goals rw [faultOf_of_ne_mkc rfl hmkc]
  case ctxclr => exact ⟨.ok (.setContext none), exec_ctxclr_of_issuing hl, faultIn_ok_eq_sourceFault_nil ln _⟩
  case ldl rd => exact ⟨.ok (.setLabel rd s.din), exec_ldl_of_issuing rd hl, faultIn_ok_eq_sourceFault_nil ln _⟩
  case rdst => exact ⟨.ok (.drive (statusWord s ln)), exec_rdst_of_issuing hl, faultIn_ok_eq_sourceFault_nil ln _⟩
  all_goals refine ⟨_, perform_of_issuing _ hl, ?_⟩
  case stl | dbl | quad => exact faultIn_readLabel_bind fun _ => faultIn_ok_eq_sourceFault_nil ln _
  case xor | ctwk =>
    exact faultIn_readLabel_bind fun _ => faultIn_readLabel_bind fun _ => faultIn_ok_eq_sourceFault_nil ln _
  case enc =>
    exact faultIn_readContext_bind fun _ => faultIn_readLabel_bind fun _ => faultIn_ok_eq_sourceFault_nil ln _
  case gate =>
    exact faultIn_readContext_bind fun _ => faultIn_readLabel_bind fun _ => faultIn_readLabel_bind fun _ =>
      faultIn_readLabel_bind fun _ => faultIn_ok_eq_sourceFault_nil ln _

/-! ## Illegal words (R140) -/

theorem exists_decode_error_of_spells_no_row {cw : CmdWord} (h : ∀ row ∈ opcodeTable, row.spells cw = false) :
    ∃ e, decode cw = .error e := by
  cases hd : decode cw with
  | error e => exact ⟨e, rfl⟩
  | ok i => exact absurd (spells_of_decode hd) (Bool.eq_false_iff.mp (h _ (rowOf_mem_opcodeTable i)))

/-- An illegal word faults its lane, whatever the state holds (R140). -/
theorem step_illegal_of_lane {s : State} {p : Nat} {cw : CmdWord} {din : Label} {rest : List HostEvent} {ln : Lane}
    {e : DecodeError} (hp : s.pending = .command p cw din :: rest) (hl : s.lanes[p]? = some ln)
    (hd : decode cw = .error e) :
    step s = .next (State.faulted { s with lane := p, din := din, pending := rest } ln .errIllegal) :=
  (step_illegal hp hd).trans (illegalWord_of_issuing (ln := ln) hl)

end Sys2Proof.Machine

namespace Sys2Proof.Proofs

open Sys2Proof.Machine

/-- Settles O8: a word that decodes would spell its command's row. -/
theorem illegalWordFaults : Obligations.IllegalWordFaults := by
  intro s p cw din rest ln hp hl hno
  obtain ⟨e, hd⟩ := exists_decode_error_of_spells_no_row hno
  exact step_illegal_of_lane hp hl hd

/-- Settles O13: an illegal word is not examined, a command's checks end as `faultOf` says, RESET clears FIRSTERR. -/
theorem faultPriority : Obligations.FaultPriority := by
  refine ⟨fun s p cw din rest ln e => step_illegal_of_lane, fun i s ln hl => ?command, fun s rest hp => ?reset⟩
  case command =>
    obtain ⟨r, hexec, hfault⟩ := exec_conclude_faultOf i hl
    rw [← hfault]
    refine ⟨fun c hc => ?faults, fun hnone => ?completes⟩
    case faults =>
      rw [hexec, eq_error_of_faultIn hc]
      rfl
    case completes =>
      obtain ⟨e, rfl⟩ := eq_ok_of_faultIn hnone
      have hlt : s.lane < s.lanes.length := (List.getElem?_eq_some_iff.mp hl).1
      refine ⟨_, e.onLane ln, e.dout, hexec, ?_, e.response_onLane ln⟩
      rw [State.conclude, State.finish_lanes, List.getElem?_set_self hlt]
  case reset =>
    refine ⟨_, step_reset_event hp, ?_⟩
    simp [State.FaultFree]

/-- Settles O14: the lane did not complete, which answers `OK`, so all that happened is that it took a fault. -/
theorem faultingCommandIsNullified : Obligations.FaultingCommandIsNullified := by
  intro s t p cw din rest ln' c d hp h hl' hr
  obtain ⟨s₀, ln, rfl, hl, ⟨c', rfl⟩ | ⟨i, e, -, -, rfl⟩⟩ := step_command_next hp h
  all_goals have hlt : p < s.lanes.length := (List.getElem?_eq_some_iff.mp hl).1
  · obtain rfl : ln.takeFault c' = ln' := Option.some.inj ((List.getElem?_set_self hlt).symm.trans hl')
    cases hr
    exact ⟨rfl, rfl, rfl, List.length_set, fun q hq => List.getElem?_set_ne hq.symm, ln, hl, rfl, rfl, rfl⟩
  · rw [State.finish_lanes, List.getElem?_set_self hlt] at hl'
    cases hl'
    cases (e.response_onLane ln).symm.trans hr

/-- Settles O16: FIRSTERR not 0 stays so, and a command that faults leaves its lane's FIRSTERR not 0. -/
theorem faultFreeEndIsEvidence : Obligations.FaultFreeEndIsEvidence := by
  intro s t h hnr hfree
  refine ⟨fun ln hmem => ?before, fun p cw din rest hp => ?answer⟩
  case before =>
    by_contra hf
    obtain ⟨p, hl⟩ := List.mem_iff_getElem?.mp hmem
    obtain ⟨ln', hl', heq⟩ := firstErrIsSticky s t p ln h hnr hl hf
    exact hf (heq.symm.trans (hfree ln' (List.mem_of_getElem? hl')))
  case answer =>
    obtain ⟨ln, ln', hl, ha, ht⟩ := step_command_lanes hp h
    have hl' : t.lanes[p]? = some ln' := ht ▸ List.getElem?_set_self (List.getElem?_eq_some_iff.mp hl).1
    cases ha with
    | fault c => exact absurd (hfree _ (List.mem_of_getElem? hl')) (latchFirstErr_ne_zero ln.firstErr c)
    | complete e => exact ⟨_, e.dout, hl', e.response_onLane ln⟩

/-- Settles O5, status by status; the codes are sixteen. -/
theorem statusCodes : Obligations.StatusCodes := by
  refine ⟨fun st => ?_, by decide, rfl, rfl, rfl, rfl, rfl⟩
  rcases st with - | c
  · rfl
  · cases c <;> rfl

/-- Settles O7: the step rule of a block with nothing pending. -/
theorem idleStepChangesNothing : Obligations.IdleStepChangesNothing :=
  fun _ => step_idle

/-- Settles O12: every command is performed on the issuing lane, which does not exist. -/
theorem missingLaneStops : Obligations.MissingLaneStops := by
  intro i s hlane
  obtain ⟨body, hexec, -⟩ := exec_same_body i (s := s) rfl rfl
  exact hexec.trans (perform_noSuchLane (List.getElem?_eq_none hlane))

end Sys2Proof.Proofs
end

section
/-! PROOFS. The family of 70_reset_and_hazards.md: what RESET makes of the block (R160), that nothing it destroyed can
be told afterwards (R161), and that faults do not depend on data (R170). -/

namespace Sys2Proof.Machine

/-! ## The state right after RESET (R160) -/

theorem Lane.lv_fresh (laneId : BitVec 8) (r : LReg) : (Lane.fresh laneId).lv r = false := by
  simp [Lane.lv, Lane.fresh]

@[simp] theorem State.resetWith_lanes (n : Nat) :
    (State.resetWith n).lanes = (List.range n).map fun p => Lane.fresh (BitVec.ofNat 8 p) := rfl

theorem State.length_resetWith_lanes (n : Nat) : (State.resetWith n).lanes.length = n := by
  simp

theorem State.resetWith_lane_of_lt {n p : Nat} (hp : p < n) :
    (State.resetWith n).lanes[p]? = some (Lane.fresh (BitVec.ofNat 8 p)) := by
  simp [hp]

theorem State.exists_eq_fresh_of_mem_resetWith {n : Nat} {ln : Lane} (h : ln ∈ (State.resetWith n).lanes) :
    ∃ laneId, ln = Lane.fresh laneId := by
  obtain ⟨p, -, rfl⟩ := List.mem_map.mp h
  exact ⟨_, rfl⟩

theorem State.resetWith_inv {n : Nat} (hpos : 1 ≤ n) (hmax : n ≤ Config.maxLanes) : (State.resetWith n).Inv where
  laneCount := by
    rw [State.length_resetWith_lanes]
    exact ⟨hpos, hmax⟩
  laneIds := by
    intro p ln hl
    have hp : p < n := by
      rw [← State.length_resetWith_lanes n]
      exact (List.getElem?_eq_some_iff.mp hl).1
    cases (State.resetWith_lane_of_lt hp).symm.trans hl
    rfl
  firstErrLegal := by
    intro ln hmem
    obtain ⟨laneId, rfl⟩ := State.exists_eq_fresh_of_mem_resetWith hmem
    exact Nat.zero_le 4
  faultLatched := by
    intro ln hmem c d hr
    obtain ⟨laneId, rfl⟩ := State.exists_eq_fresh_of_mem_resetWith hmem
    cases hr
  contextExpanded := fun _ hctx => nomatch hctx

/-! ## The RESET event and what `RDST` reads after it (R160) -/

/-- Without a context, a valid label register and a fault on record, the status word is LANEID in its place (R130). -/
theorem statusWord_of_cleared {s : State} {ln : Lane} (hctx : s.ctx = none) (hlv : ∀ r : LReg, ln.lv r = false)
    (hfirstErr : ln.firstErr = 0) : statusWord s ln = ln.laneId.setWidth 128 <<< 16 := by
  have hlvBits : ln.lvBits = 0 := by simp [Lane.lvBits, hlv]
  simp [statusWord, State.ctxv, hctx, hlvBits, hfirstErr]

theorem State.applyReset_lane_of_lane {s : State} {p : Nat} {ln : Lane} (hl : s.lanes[p]? = some ln) :
    s.applyReset.lanes[p]? = some ln.reset := by
  simp [hl]

/-! ## What was destroyed leaves no trace (R161) -/

/-- All that RESET keeps of the lanes is their numbers. -/
theorem State.applyReset_lanes_eq_map_laneId (s : State) :
    s.applyReset.lanes = (s.lanes.map Lane.laneId).map Lane.fresh :=
  List.map_map.symm

/-- `CTXCLR` overwrites the context and reads nothing of it (R72). -/
theorem exec_ctxclr_with_ctx (s : State) (ctx : Option Schedule) :
    exec .ctxclr { s with ctx := ctx } = exec .ctxclr s := by
  cases hl : s.lanes[s.lane]? with
  | none =>
    have hlane : s.lanes.length ≤ s.lane := List.getElem?_eq_none_iff.mp hl
    rw [Proofs.missingLaneStops _ s hlane, Proofs.missingLaneStops _ { s with ctx := ctx } hlane]
  | some ln => rw [exec_ctxclr_of_issuing hl, exec_ctxclr_of_issuing (s := { s with ctx := ctx }) hl]

/-! ## The status as a function of the fault condition, and the fault condition as one of CTXV and LV (R170) -/

/-- The status that reports a fault condition, `OK` where there is none. -/
def Status.ofFault : Option ErrCode → Status
  | none => .ok
  | some c => .err c

/-- A command answers with the status of the one fault condition that applies to it (R145). -/
theorem exec_status_ofFault (i : Instr) {s : State} {ln : Lane} (hl : s.Issuing ln) :
    ∃ (t : State) (m : Lane) (d : Label), exec i s = .next t ∧ t.lanes[s.lane]? = some m ∧
      m.response = some ⟨Status.ofFault (i.faultOf s ln), d⟩ := by
  obtain ⟨-, hcommand, -⟩ := Proofs.faultPriority
  obtain ⟨hfaults, hcompletes⟩ := hcommand i s ln hl
  have hlt : s.lane < s.lanes.length := (List.getElem?_eq_some_iff.mp hl).1
  cases hf : i.faultOf s ln with
  | none => exact hcompletes hf
  | some c => exact ⟨_, _, 0, hfaults c hf, List.getElem?_set_self hlt, rfl⟩

/-- No fault condition reads the tweak (R112). -/
theorem faultOf_eraseTweak (i : Instr) (s : State) (ln : Lane) : i.eraseTweak.faultOf s ln = i.faultOf s ln := by
  cases i
  case ctwk rd ra rb t =>
    have hne (u : Tweak) : Instr.ctwk rd ra rb u ≠ .mkc := nofun
    exact (faultOf_of_ne_mkc rfl (hne 0) s ln).trans (faultOf_of_ne_mkc rfl (hne t) s ln).symm
  case gate rd ra rb rc t =>
    have hne (u : Tweak) : Instr.gate rd ra rb rc u ≠ .mkc := nofun
    exact (faultOf_of_ne_mkc rfl (hne 0) s ln).trans (faultOf_of_ne_mkc rfl (hne t) s ln).symm
  all_goals rfl

/-- Of the state a fault condition reads CTXV and the LV bits of the lane alone (R88, R112). -/
theorem faultOf_congr (i : Instr) {s s' : State} {ln ln' : Lane} (hctxv : s.ctxv = s'.ctxv)
    (hlv : ∀ r : LReg, ln.lv r = ln'.lv r) : i.faultOf s ln = i.faultOf s' ln' := by
  simp only [Instr.faultOf, hctxv, hlv]

end Sys2Proof.Machine

namespace Sys2Proof.Proofs

open Sys2Proof.Machine

/-- Settles O10: every lane becomes its reset form, on which the status word is LANEID alone. -/
theorem resetEventClearsBlock : Obligations.ResetEventClearsBlock := by
  intro s rest hp
  refine ⟨_, step_reset_event hp, rfl, rfl, List.length_map _, fun p ln hl => ?_⟩
  have hlv : ∀ r, ln.reset.lv r = false := Lane.lv_fresh ln.laneId
  have hl' := State.applyReset_lane_of_lane (s := { s with pending := rest }) hl
  refine ⟨ln.reset, hl', hlv, rfl, rfl, rfl, fun din => ?_⟩
  rw [exec_rdst_of_issuing (ln := ln.reset) hl', statusWord_of_cleared rfl hlv rfl, Lane.reset_laneId]

/-- Settles O52: RESET keeps LANEID alone of the lanes, `CTXCLR` overwrites the context. -/
theorem destroyedContentsLeaveNoTrace : Obligations.DestroyedContentsLeaveNoTrace := by
  refine ⟨fun s s' t t' rest hp hp' hids ht ht' => ?reset, fun s rk rk' => ?ctxclr⟩
  case reset =>
    cases (step_reset_event hp).symm.trans ht
    cases (step_reset_event hp').symm.trans ht'
    refine ⟨rfl, ?_, rfl⟩
    rw [State.applyReset_lanes_eq_map_laneId, State.applyReset_lanes_eq_map_laneId, hids]
  case ctxclr => rw [exec_ctxclr_with_ctx s (some rk), exec_ctxclr_with_ctx s (some rk')]

/-- Settles O53: both commands answer with the status of their fault condition, and the two conditions are the same. -/
theorem statusIsDataIndependent : Obligations.StatusIsDataIndependent := by
  intro i j s s' ln ln' hij hl hl' hctxv hlv
  have hfault : i.faultOf s ln = j.faultOf s' ln' := by
    rw [← faultOf_eraseTweak i, hij, faultOf_eraseTweak, faultOf_congr j hctxv hlv]
  obtain ⟨t, m, d, ht, hm, hr⟩ := exec_status_ofFault i hl
  obtain ⟨t', m', d', ht', hm', hr'⟩ := exec_status_ofFault j hl'
  exact ⟨t, t', m, m', _, d, d', ht, ht', hm, hm', hfault ▸ hr, hr'⟩

/-- Settles O11: lane p is a fresh lane with the number p, which fits in LANEID. -/
theorem resetStateOfEveryLaneCount : Obligations.ResetStateOfEveryLaneCount := by
  intro n _ hmax
  refine ⟨rfl, rfl, State.length_resetWith_lanes n, fun p hp => ?_⟩
  have hp256 : p < 2 ^ 8 := Nat.lt_of_lt_of_le hp hmax
  have hlaneId : (BitVec.ofNat 8 p).toNat = p := (BitVec.toNat_ofNat p 8).trans (Nat.mod_eq_of_lt hp256)
  exact ⟨_, State.resetWith_lane_of_lt hp, hlaneId, rfl, rfl, Lane.lv_fresh _⟩

/-- Settles O55: the invariant of the reset state for every lane count, of which the reference one is an instance. -/
theorem resetMeetsInvariant : Obligations.ResetMeetsInvariant :=
  ⟨fun _ => State.resetWith_inv, State.resetWith_inv (by decide) (by decide)⟩

end Sys2Proof.Proofs
end
